-- ==== Sys2Proof/Word.lean ====
section
/-! DEFINITION. The two widths of data of the band encoder: a byte of a buffer or of the wire, and a 32-bit CSR word
(00_scope.md R9, R11: bit 0 is the least significant bit). -/

namespace Sys2Proof

/-- A byte: bit 7 is the *high bit*, weight 0x80 (R11). -/
abbrev Byte := BitVec 8

/-- The word of a CSR access (R9, R104). -/
abbrev Word := BitVec 32

end Sys2Proof
end

