-- ==== Sys2Proof/Config.lean ====
section
/-! DEFINITION. What an implementation fixes, and the free values of the spec.

The three implementation parameters of 00_scope.md R8 are data that the state carries (`State.params`), so that every
statement about a state ranges over every value of them. -/

namespace Sys2Proof.Config

/-- The implementation parameters, arguments of a model (R8; 92_eei_decisions.md D31, D40). -/
structure Params where
  /-- capacity of one band-buffer row, in raster bytes (R8; legal 1 to 1249) -/
  wmax : Nat
  /-- capacity of the print buffer, in bytes (R8; legal 8 to 119904) -/
  pbufCap : Nat
  /-- the constant read from ID (R8, R33) -/
  idValue : Word
  deriving DecidableEq, Repr

/-- The reference configuration: the defaults of R8. -/
def Params.default : Params := ⟨1249, 119904, 0x424E4431#32⟩

/-- The legal ranges of R8. -/
abbrev Params.Legal (c : Params) : Prop := (1 ≤ c.wmax ∧ c.wmax ≤ 1249) ∧ 8 ≤ c.pbufCap ∧ c.pbufCap ≤ 119904

/-- FREE VALUE (log 5): the n-th free draw of the length that the sink takes of an abandoned Emit. R213: "some prefix
of s whose length is not specified"; the use reduces it to 0 .. len(s). It has no body. -/
opaque abandonedPrefix : Nat → Nat

/-- FREE VALUE (log 6): the bytes that the n-th draw leaves in buffer BBUF (0), TBUF (1) or PBUF (2). R83 to R85: "Its
contents after reset are unspecified". It has no body. -/
opaque unspecifiedBytes : Nat → Nat → List Byte

/-- FREE VALUE (log 7): the number that the n-th draw leaves in a loop variable, counted from 0 in the order of R81.
R81: "Their values while IDLE are unspecified and are never read". It has no body. -/
opaque unspecifiedNumber : Nat → Nat → Nat

end Sys2Proof.Config
end

