-- ==== Sys2Proof/Syntax.lean ====
section
/-! DEFINITION. The syntax of the band encoder's two encoded languages (30_encoding.md): the host's accesses and
commands, and the wire units. One constructor of `Instr` per row of spec/opcode_table.json. -/

namespace Sys2Proof

/-- The bytes of a two-digit decimal field as they stand on the wire, tens first (R154). Whether they are digits is
`WellFormed`'s question. -/
structure Dec2 where
  tens : Byte
  ones : Byte
  deriving DecidableEq, Repr

/-- The bytes of a four-digit decimal field as they stand on the wire, thousands first (R153). -/
structure Dec4 where
  d3 : Byte
  d2 : Byte
  d1 : Byte
  d0 : Byte
  deriving DecidableEq, Repr

/-- One host bus access to the CSR window: a 32-bit read or write at an offset (R101, R104, R161). A read's data is
not looked at. -/
structure BusAccess where
  write : Bool
  off : BitVec 8
  data : Word
  deriving DecidableEq, Repr

/-- The instructions: one constructor per row of spec/opcode_table.json. -/
inductive Instr where
  /-- NOP (R205) -/
  | nop
  /-- START (R203) -/
  | start
  /-- XPOSE (R210) -/
  | xpose
  /-- ILLEGAL_OP_0x3 (R142) -/
  | illegal3
  /-- ILLEGAL_OP_0x4..0x7: the two low OP bits are the operand (R142) -/
  | illegal4to7 (lo : BitVec 2)
  /-- ILLEGAL_OP_0x8..0xb (R142) -/
  | illegal8toB (lo : BitVec 2)
  /-- ILLEGAL_OP_0xc..0xd (R142) -/
  | illegalCtoD (lo : BitVec 1)
  /-- ILLEGAL_OP_0xe (R142) -/
  | illegalE
  /-- SRESET (R212) -/
  | sreset
  /-- csrr OFF (R200) -/
  | csrr (off : BitVec 8)
  /-- csrw OFF, V (R201) -/
  | csrw (off : BitVec 8) (v : Word)
  /-- `ESC '<'`, bidirectional (R150) -/
  | escBidi
  /-- `ESC '>'`, unidirectional (R150) -/
  | escUni
  /-- `ESC 'A'` (R155) -/
  | escA
  /-- `ESC 'B'` (R155) -/
  | escB
  /-- `ESC 'E'` (R155) -/
  | escE
  /-- `ESC 'K' d`, ribbon select (R152) -/
  | escK (d : BitVec 2)
  /-- `ESC 'T' nn`, line height (R151) -/
  | escT (nn : Dec2)
  /-- `ESC 'G' nnnn` and n payload bytes (R146) -/
  | escG (nnnn : Dec4) (payload : List Byte)
  /-- `ESC 'V' nnnn` and one zero byte (R147) -/
  | escV (nnnn : Dec4)
  /-- `ESC 'C' nnnn` and 3n payload bytes (R148) -/
  | escC (nnnn : Dec4) (payload : List Byte)
  /-- `ESC 'U' nnnn` and three zero bytes (R149) -/
  | escU (nnnn : Dec4)
  /-- carriage return (R156) -/
  | cr
  /-- line feed (R156) -/
  | lf
  /-- formfeed (R156) -/
  | ff
  /-- RAW: host-programmed bytes, sent unchanged (R157) -/
  | raw (bytes : List Byte)
  deriving DecidableEq, Repr

/-- The code of an instruction: a host bus access, or a wire unit with its kind. R320: an Emit's operands are the byte
string "and the unit's kind (generated or RAW)". -/
inductive Code where
  | bus (a : BusAccess)
  | wire (raw : Bool) (bytes : List Byte)
  deriving DecidableEq, Repr

/-- Why the decoder refuses wire bytes as a generated unit (R159, R160). -/
inductive Reject where
  /-- the byte string ends before the unit does -/
  | truncated
  /-- the first byte is neither ESC, CR, LF nor FF -/
  | badControl
  /-- the selector after ESC is none of `< > A B C E G K T U V` -/
  | badSelector
  /-- the digit of `ESC 'K'` is not '0' to '3' -/
  | badDigit
  /-- a fill byte of `ESC 'V'` or `ESC 'U'` is not zero -/
  | badFill
  /-- bytes remain after the one unit -/
  | trailing
  deriving DecidableEq, Repr

end Sys2Proof
end

