-- ==== Sys2Proof/Machine/Operands.lean ====
section
/-! DEFINITION. The operand fields of the wire language: characters, decimal fields and the seven unit formats
(30_encoding.md sections 1, 3 and 4), and the little-endian byte packing of a CSR word (20_memory.md R107). -/

namespace Sys2Proof.Machine

/-! ### Characters (R140) -/

/-- ESC = 0x1B, the one code the source gives. -/
def chESC : Byte := 0x1B
def chCR : Byte := 0x0D
def chLF : Byte := 0x0A
def chFF : Byte := 0x0C
def chLess : Byte := 0x3C
def chGreater : Byte := 0x3E
def chA : Byte := 0x41
def chB : Byte := 0x42
def chC : Byte := 0x43
def chE : Byte := 0x45
def chG : Byte := 0x47
def chK : Byte := 0x4B
def chT : Byte := 0x54
def chU : Byte := 0x55
def chV : Byte := 0x56

/-! ### Decimal fields (R153, R154) -/

/-- The ASCII digit of a number below 10: 0x30 + n. -/
def digit (n : Nat) : Byte := BitVec.ofNat 8 (0x30 + n % 10)

/-- The value of an ASCII digit; none for any other byte. -/
def digitValue (b : Byte) : Option Nat := if 0x30 ≤ b.toNat ∧ b.toNat ≤ 0x39 then some (b.toNat - 0x30) else none

/-- dec4(n), most significant digit first (R153). -/
def dec4 (n : Nat) : Dec4 := ⟨digit (n / 1000), digit (n / 100), digit (n / 10), digit n⟩

/-- dec2(n) (R154). -/
def dec2 (n : Nat) : Dec2 := ⟨digit (n / 10), digit n⟩

/-- The number that four digits write; none if a byte is no digit. -/
def dec4Value (f : Dec4) : Option Nat := do
  let a ← digitValue f.d3
  let b ← digitValue f.d2
  let c ← digitValue f.d1
  let d ← digitValue f.d0
  return 1000 * a + 100 * b + 10 * c + d

/-- The number that two digits write; none if a byte is no digit. -/
def dec2Value (f : Dec2) : Option Nat := do
  let a ← digitValue f.tens
  let b ← digitValue f.ones
  return 10 * a + b

/-- The column count by which a reader finds the end of a data unit (R159). A field with a byte that is no digit, which
the encoder never emits (R160), gives no columns (log 9). -/
def columnCount (f : Dec4) : Nat := (dec4Value f).getD 0

/-! ### The unit formats (R145) -/

/-- ESC2: ESC and a selector. -/
def unitEsc2 (sel : Byte) : List Byte := [chESC, sel]

/-- ESCD1: `ESC 'K'` and one digit (R152). -/
def unitRibbon (d : BitVec 2) : List Byte := [chESC, chK, digit d.toNat]

/-- ESCD2: `ESC 'T'` and two digits (R151). -/
def unitLineHeight (f : Dec2) : List Byte := [chESC, chT, f.tens, f.ones]

/-- ESCD4DATA: the header of four digits, then the payload (R146, R148). -/
def unitData (sel : Byte) (f : Dec4) (payload : List Byte) : List Byte :=
  [chESC, sel, f.d3, f.d2, f.d1, f.d0] ++ payload

/-- ESCD4FILL: the header of four digits, then S zero bytes (R147, R149). -/
def unitFill (sel : Byte) (f : Dec4) (stride : Nat) : List Byte :=
  [chESC, sel, f.d3, f.d2, f.d1, f.d0] ++ List.replicate stride 0

/-- CTL1: one control byte (R156). -/
def unitControl (c : Byte) : List Byte := [c]

/-! ### Packed registers (R107) -/

/-- Byte t of a packed word: bits [8t+7 : 8t]. -/
def packedByte (w : Word) (t : Nat) : Byte := w.extractLsb' (8 * t) 8

/-- The word whose bytes 0 to 3 are given: byte t in bits [8t+7 : 8t]. -/
def packWord (b0 b1 b2 b3 : Byte) : Word := b3 ++ b2 ++ b1 ++ b0

end Sys2Proof.Machine
end

