-- ==== Sys2Proof/WellFormed.lean ====
section
/-! DEFINITION. The static checks on an instruction: the operand ranges that the rows of spec/opcode_table.json and
30_encoding.md R146 to R157 give. The machine gives an outcome to ill-formed terms too (a misaligned access gets a bus
error, R104); the checks say which terms the table's rows describe. -/

namespace Sys2Proof

open Sys2Proof.Machine

/-- A CSR offset is word aligned (R104; the table's match OFF[1:0] = 0). -/
abbrev AlignedOffset (off : BitVec 8) : Prop := off.toNat % 4 = 0

/-- A line height field: two digits, one of the heights 01, 15, 16 (R151). -/
abbrev LineHeightField (f : Dec2) : Prop := dec2Value f = some 1 ∨ dec2Value f = some 15 ∨ dec2Value f = some 16

/-- A data unit's count: four digits, 1 ≤ n ≤ 8 × 1249 (R146, R160, R281), and S × n payload bytes. -/
abbrev DataField (stride : Nat) (f : Dec4) (payload : List Byte) : Prop :=
  dec4Value f = some (columnCount f) ∧ 1 ≤ columnCount f ∧ columnCount f ≤ 9992 ∧
    payload.length = stride * columnCount f

/-- A position-sync count: four digits, 8 ≤ n < 8 × 1249 (R147, R286). -/
abbrev SyncField (f : Dec4) : Prop := dec4Value f = some (columnCount f) ∧ 8 ≤ columnCount f ∧ columnCount f ≤ 9991

/-- A RAW unit carries 1 to 4 pitch bytes or 1 to 16 back-up bytes (R145, R157). -/
abbrev RawField (bytes : List Byte) : Prop := 1 ≤ bytes.length ∧ bytes.length ≤ 16

/-- Well-formed instructions. A csrw at 0x04 is a CMD write, whose words the CMD rows decode (the table's note on csrw). -/
def WellFormed : Instr → Prop
  | .nop | .start | .xpose | .illegal3 | .illegal4to7 _ | .illegal8toB _ | .illegalCtoD _ | .illegalE | .sreset => True
  | .csrr off => AlignedOffset off
  | .csrw off _ => AlignedOffset off ∧ off ≠ 0x04
  | .escBidi | .escUni | .escA | .escB | .escE | .escK _ => True
  | .escT f => LineHeightField f
  | .escG f payload => DataField 1 f payload
  | .escV f => SyncField f
  | .escC f payload => DataField 3 f payload
  | .escU f => SyncField f
  | .cr | .lf | .ff => True
  | .raw bytes => RawField bytes

/-- The same checks as a Bool, for evaluation. -/
def wellFormed : Instr → Bool
  | .nop | .start | .xpose | .illegal3 | .illegal4to7 _ | .illegal8toB _ | .illegalCtoD _ | .illegalE | .sreset => true
  | .csrr off => decide (AlignedOffset off)
  | .csrw off _ => decide (AlignedOffset off ∧ off ≠ 0x04)
  | .escBidi | .escUni | .escA | .escB | .escE | .escK _ => true
  | .escT f => decide (LineHeightField f)
  | .escG f payload => decide (DataField 1 f payload)
  | .escV f => decide (SyncField f)
  | .escC f payload => decide (DataField 3 f payload)
  | .escU f => decide (SyncField f)
  | .cr | .lf | .ff => true
  | .raw bytes => decide (RawField bytes)

/-- The two readings of well-formedness are one. -/
theorem wellFormed_iff (i : Instr) : wellFormed i = true ↔ WellFormed i := by
  cases i <;> simp [wellFormed, WellFormed]

end Sys2Proof
end

