-- ==== Sys2Proof/Decode.lean ====
section
/-! DEFINITION. The decoder, total on any bus access and any bytes, and after it the encoder, both from 30_encoding.md
(R141 to R144 for the CMD word, R145 to R159 for the wire units) and R200, R201 for the register accesses. -/

namespace Sys2Proof

open Sys2Proof.Machine

/-! ### The host's language -/

/-- The offset of CMD (10_state.md R32, R34). -/
def cmdOffset : BitVec 8 := 0x04

/-- A CMD word decodes as its OP = bits [3:0] alone (R141 to R144). -/
def decodeCmd (w : Word) : Instr :=
  match (w.extractLsb' 0 4).toNat with
  | 0x0 => .nop
  | 0x1 => .start
  | 0x2 => .xpose
  | 0x3 => .illegal3
  | 0x4 | 0x5 | 0x6 | 0x7 => .illegal4to7 (w.extractLsb' 0 2)
  | 0x8 | 0x9 | 0xA | 0xB => .illegal8toB (w.extractLsb' 0 2)
  | 0xC | 0xD => .illegalCtoD (w.extractLsb' 0 1)
  | 0xE => .illegalE
  | _ => .sreset

/-- A bus access is csrr, csrw, or, written at 0x04, a command (R161, R200, R201). -/
def decodeBus (a : BusAccess) : Instr :=
  if a.write then
    if a.off = cmdOffset then decodeCmd a.data else .csrw a.off a.data
  else .csrr a.off

/-! ### The wire language -/

/-- The first n bytes and the rest, or a rejection. -/
def takeBytes (n : Nat) (bs : List Byte) : Except Reject (List Byte × List Byte) :=
  if n ≤ bs.length then .ok (bs.take n, bs.drop n) else .error .truncated

/-- The zero bytes of a position-sync unit (R147, R149). -/
def takeFill (n : Nat) (bs : List Byte) (i : Instr) : Except Reject (Instr × List Byte) :=
  if n ≤ bs.length then
    if bs.take n = List.replicate n 0 then .ok (i, bs.drop n) else .error .badFill
  else .error .truncated

/-- A field of four bytes (R153). -/
def takeDec4 : List Byte → Except Reject (Dec4 × List Byte)
  | a :: b :: c :: d :: rest => .ok (⟨a, b, c, d⟩, rest)
  | _ => .error .truncated

/-- The digit of `ESC 'K'`: '0' to '3' (R152). -/
def takeRibbon : List Byte → Except Reject (Instr × List Byte)
  | b :: rest =>
    if b = digit 0 then .ok (.escK 0, rest)
    else if b = digit 1 then .ok (.escK 1, rest)
    else if b = digit 2 then .ok (.escK 2, rest)
    else if b = digit 3 then .ok (.escK 3, rest)
    else .error .badDigit
  | [] => .error .truncated

/-- The two digits of `ESC 'T'` (R151). -/
def takeLineHeight : List Byte → Except Reject (Instr × List Byte)
  | a :: b :: rest => .ok (.escT ⟨a, b⟩, rest)
  | _ => .error .truncated

/-- `ESC 'G'` after its selector: 6 + n bytes in all (R146, R159). -/
def takeDataG (bs : List Byte) : Except Reject (Instr × List Byte) :=
  match takeDec4 bs with
  | .error e => .error e
  | .ok (f, rest) =>
    match takeBytes (1 * columnCount f) rest with
    | .error e => .error e
    | .ok (payload, rest') => .ok (.escG f payload, rest')

/-- `ESC 'C'` after its selector: 6 + 3n bytes in all (R148, R159). -/
def takeDataC (bs : List Byte) : Except Reject (Instr × List Byte) :=
  match takeDec4 bs with
  | .error e => .error e
  | .ok (f, rest) =>
    match takeBytes (3 * columnCount f) rest with
    | .error e => .error e
    | .ok (payload, rest') => .ok (.escC f payload, rest')

/-- `ESC 'V'` after its selector: 7 bytes in all (R147, R159). -/
def takeSyncV (bs : List Byte) : Except Reject (Instr × List Byte) :=
  match takeDec4 bs with
  | .error e => .error e
  | .ok (f, rest) => takeFill 1 rest (.escV f)

/-- `ESC 'U'` after its selector: 9 bytes in all (R149, R159). -/
def takeSyncU (bs : List Byte) : Except Reject (Instr × List Byte) :=
  match takeDec4 bs with
  | .error e => .error e
  | .ok (f, rest) => takeFill 3 rest (.escU f)

/-- The unit that an ESC and a selector begin (R159); any other selector is refused (R160). -/
def readEscape (sel : Byte) (rest : List Byte) : Except Reject (Instr × List Byte) :=
  if sel = chLess then .ok (.escBidi, rest)
  else if sel = chGreater then .ok (.escUni, rest)
  else if sel = chA then .ok (.escA, rest)
  else if sel = chB then .ok (.escB, rest)
  else if sel = chE then .ok (.escE, rest)
  else if sel = chK then takeRibbon rest
  else if sel = chT then takeLineHeight rest
  else if sel = chG then takeDataG rest
  else if sel = chV then takeSyncV rest
  else if sel = chC then takeDataC rest
  else if sel = chU then takeSyncU rest
  else .error .badSelector

/-- Read one generated unit off the front of a byte stream, by the length rule of R159. -/
def readUnit : List Byte → Except Reject (Instr × List Byte)
  | [] => .error .truncated
  | b :: bs =>
    if b = chCR then .ok (.cr, bs)
    else if b = chLF then .ok (.lf, bs)
    else if b = chFF then .ok (.ff, bs)
    else if b = chESC then
      match bs with
      | [] => .error .truncated
      | sel :: rest => readEscape sel rest
    else .error .badControl

/-- A unit of the wire: a RAW unit is its bytes, unparsed (R157); a generated one is read by `readUnit` and must end
with the string. -/
def decodeWire (raw : Bool) (bytes : List Byte) : Except Reject Instr :=
  if raw then .ok (.raw bytes)
  else
    match readUnit bytes with
    | .error e => .error e
    | .ok (i, []) => .ok i
    | .ok (_, _ :: _) => .error .trailing

/-- The decoder. -/
def decode : Code → Except Reject Instr
  | .bus a => .ok (decodeBus a)
  | .wire raw bytes => decodeWire raw bytes

/-! ### The encoder -/

/-- The CMD word of a command: its OP, with bits [31:4] zero (R141). Zero for an instruction that is no command. -/
def cmdWord : Instr → Word
  | .start => 0x1
  | .xpose => 0x2
  | .illegal3 => 0x3
  | .illegal4to7 lo => (0b01#2 ++ lo).zeroExtend 32
  | .illegal8toB lo => (0b10#2 ++ lo).zeroExtend 32
  | .illegalCtoD lo => (0b110#3 ++ lo).zeroExtend 32
  | .illegalE => 0xE
  | .sreset => 0xF
  | _ => 0x0

/-- The bytes of a wire unit, in its format of R145. Empty for a host access. -/
def wireBytes : Instr → List Byte
  | .escBidi => unitEsc2 chLess
  | .escUni => unitEsc2 chGreater
  | .escA => unitEsc2 chA
  | .escB => unitEsc2 chB
  | .escE => unitEsc2 chE
  | .escK d => unitRibbon d
  | .escT f => unitLineHeight f
  | .escG f payload => unitData chG f payload
  | .escV f => unitFill chV f 1
  | .escC f payload => unitData chC f payload
  | .escU f => unitFill chU f 3
  | .cr => unitControl chCR
  | .lf => unitControl chLF
  | .ff => unitControl chFF
  | .raw bytes => bytes
  | _ => []

/-- The encoder: the bus access of a host instruction (R161), or the bytes and the kind of a wire unit (R145, R320). -/
def encode : Instr → Code
  | .csrr off => .bus ⟨false, off, 0⟩
  | .csrw off v => .bus ⟨true, off, v⟩
  | .raw bytes => .wire true bytes
  | .nop => .bus ⟨true, cmdOffset, cmdWord .nop⟩
  | .start => .bus ⟨true, cmdOffset, cmdWord .start⟩
  | .xpose => .bus ⟨true, cmdOffset, cmdWord .xpose⟩
  | .illegal3 => .bus ⟨true, cmdOffset, cmdWord .illegal3⟩
  | .illegal4to7 lo => .bus ⟨true, cmdOffset, cmdWord (.illegal4to7 lo)⟩
  | .illegal8toB lo => .bus ⟨true, cmdOffset, cmdWord (.illegal8toB lo)⟩
  | .illegalCtoD lo => .bus ⟨true, cmdOffset, cmdWord (.illegalCtoD lo)⟩
  | .illegalE => .bus ⟨true, cmdOffset, cmdWord .illegalE⟩
  | .sreset => .bus ⟨true, cmdOffset, cmdWord .sreset⟩
  | .escBidi => .wire false (wireBytes .escBidi)
  | .escUni => .wire false (wireBytes .escUni)
  | .escA => .wire false (wireBytes .escA)
  | .escB => .wire false (wireBytes .escB)
  | .escE => .wire false (wireBytes .escE)
  | .escK d => .wire false (wireBytes (.escK d))
  | .escT f => .wire false (wireBytes (.escT f))
  | .escG f payload => .wire false (wireBytes (.escG f payload))
  | .escV f => .wire false (wireBytes (.escV f))
  | .escC f payload => .wire false (wireBytes (.escC f payload))
  | .escU f => .wire false (wireBytes (.escU f))
  | .cr => .wire false (wireBytes .cr)
  | .lf => .wire false (wireBytes .lf)
  | .ff => .wire false (wireBytes .ff)

/-! ### The opcode table's numbering (log 13) -/

/-- The n bytes of a number, most significant byte first: the table's "match/mask apply to the unit's first bytes, most
significant byte first". -/
def bytesOfNumber : Nat → Nat → List Byte
  | 0, _ => []
  | n + 1, w => BitVec.ofNat 8 (w / 256 ^ n) :: bytesOfNumber n w

/-- A table word is a wire unit's first bytes if it is one control byte or begins with ESC and is shorter than a CMD
word or longer; every other word of at most 32 bits is a CMD word. -/
def tableWordIsWire (nbits w : Nat) : Bool :=
  if nbits = 8 then w == 0x0D || w == 0x0A || w == 0x0C
  else if nbits = 32 then false
  else decide (8 < nbits) && (w / 256 ^ (nbits / 8 - 1) == 0x1B)

/-- The bytes of a table word with operand bytes of zeros after them, as many as the unit can need. -/
def tableUnitBytes (nbits w : Nat) : List Byte :=
  let bs := bytesOfNumber (nbits / 8) w
  let n := match takeDec4 (bs.drop 2) with
    | .ok (f, _) => columnCount f
    | .error _ => 0
  bs ++ List.replicate (9 + 3 * n) 0

/-- The bytes of exactly the one unit that `tableUnitBytes` begins with, if they begin with one. -/
def tableUnit (nbits w : Nat) : List Byte :=
  match readUnit (tableUnitBytes nbits w) with
  | .ok (i, _) => wireBytes i
  | .error _ => tableUnitBytes nbits w

/-- The code of a table word: a write of the word to CMD, or the unit's bytes. -/
def tableCode (nbits w : Nat) : Code :=
  if tableWordIsWire nbits w then .wire false (tableUnit nbits w)
  else .bus ⟨true, cmdOffset, BitVec.ofNat 32 w⟩

/-- The instruction the decoder reads from a word of the opcode table, as the table numbers its bits. A word of more
than 32 bits that begins no unit, and a word of no bits (csrr, csrw and RAW have no pattern), give none. -/
def decodeTableWord (nbits w : Nat) : Option Instr :=
  if nbits = 0 ∨ (32 < nbits ∧ tableWordIsWire nbits w = false) then none
  else
    match decode (tableCode nbits w) with
    | .ok i => some i
    | .error _ => none

end Sys2Proof
end

