-- ==== Sys2Proof/Machine/State.lean ====
section
/-! DEFINITION. The state of the band encoder as plain data: everything 10_state.md, 20_memory.md and 60_exceptions.md
give the machine, the port transaction that is outstanding, and the model's own fields (INVENTORY.md, '## State').
Reasons for which a step stops, and the state after hard reset (70_reset_and_hazards.md R410). -/

namespace Sys2Proof.Machine

open Sys2Proof.Config

/-! ### Small parts -/

/-- The resolution modes, codes 0 to 3 (R10, R48). -/
inductive Mode where
  | low
  | med
  | high
  | lq
  deriving DecidableEq, Repr

/-- STATUS.STATE, codes 0 to 4; 5 to 7 are never produced (R41). -/
inductive Phase where
  | idle
  | init
  | assemble
  | encode
  | finish
  deriving DecidableEq, Repr

/-- ERRINFO.ERRCODE, codes 0 to 4; 5 to 15 are never produced (R43, R370). -/
inductive ErrCode where
  | none
  | config
  | alloc
  | source
  | write
  deriving DecidableEq, Repr

/-- One bit for each of the four events: the STATUS flags (R37 to R40) and, again, the IE enables (R42). -/
structure EventBits where
  done : Bool
  err : Bool
  cmdErr : Bool
  wlock : Bool
  deriving DecidableEq, Repr

/-- Four registers of one kind, numbered 0 to 3 (R59, R60, R62). -/
structure Quad (α : Type) where
  r0 : α
  r1 : α
  r2 : α
  r3 : α
  deriving DecidableEq, Repr

/-- The fields of CFG (R47 to R53); its reserved bits hold nothing. -/
structure Cfg where
  mode : Mode
  nch : BitVec 3
  dir : Bool
  hcp : Bool
  rls : Bool
  ejff : BitVec 4
  deriving DecidableEq, Repr

/-- The RW-L registers, each at the width of its defined bits (R47 to R62). -/
structure ConfRegs where
  cfg : Cfg
  width : BitVec 16
  height : BitVec 16
  pageLen : BitVec 16
  chOrder : BitVec 8
  kDigit : BitVec 8
  pitchDat : Quad Word
  pitchLen : Quad (BitVec 3)
  quirkLen : BitVec 5
  quirkDat : Quad Word
  deriving DecidableEq, Repr

/-- ERRINFO, ERRROW, ERREXP and ERRACT (R43 to R46). -/
structure ErrRegs where
  code : ErrCode
  sub : BitVec 4
  chan : BitVec 2
  row : BitVec 16
  expected : Word
  actual : Word
  deriving DecidableEq, Repr

/-- The progress counters LNUM, BANDCNT, BYTECNT and ADV144 (R65 to R68). -/
structure Progress where
  lnum : BitVec 17
  bandCnt : Word
  byteCnt : Word
  adv144 : Word
  deriving DecidableEq, Repr

/-- The sequencer's loop variables (R81). `nlf` has 13 bits, since R81 and R352 bound it by 4096 (log 8). -/
structure LoopVars where
  lnum : BitVec 17
  ci : BitVec 2
  ch : BitVec 2
  p : BitVec 2
  s : BitVec 3
  h : BitVec 1
  nlf : BitVec 13
  deriving DecidableEq, Repr

/-- The sequencer's position in the page procedure RunPage with Band, Assemble, EncodeSegment and Finish (R80). -/
inductive Seq where
  /-- no page is running -/
  | idle
  /-- Init, first unit: directionality (R331) -/
  | initDir
  /-- Init, second unit: base line height (R332) -/
  | initHeight
  /-- Init, third unit: character pitch, if any (R333) -/
  | initPitch
  /-- before the band loop: lnum <- 0 (R330) -/
  | bandInit
  /-- the test of the band loop, lnum < H (R340) -/
  | bandTest
  /-- the start of a channel: STATE <- ASSEMBLE, ribbon select (R342, R345, R346) -/
  | chanBegin
  /-- the start of Assemble(ci) (R250) -/
  | asmBegin
  /-- sub-row s of pass p: zero fill or SourceRead (R250, R252) -/
  | asmRow
  /-- after sub-row s is in BBUF: the next sub-row, or transpose and scatter (R250, R256) -/
  | asmNext
  /-- Assemble is complete: STATE <- ENCODE (R343) -/
  | asmDone
  /-- EncodeSegment, the test and the position-sync unit (R284, R285) -/
  | segSync
  /-- EncodeSegment, the data unit (R284, R287) -/
  | segData
  /-- the carriage return after a segment -/
  | segCR
  /-- after a carriage return: the next step of the band's cadence (R347) -/
  | afterCR
  /-- the band's one line feed (R342) -/
  | bandLF
  /-- the HIGH micro-advance, `ESC 'T' 01` (R344) -/
  | microHeight
  /-- the HIGH micro-advance, line feed (R344) -/
  | microLF
  /-- after the micro-advance: half 1 (R345, R346) -/
  | half1Start
  /-- HALF_OUTER's second loop, the ribbon select of a channel (R345) -/
  | half1Begin
  /-- the end of a HIGH band, `ESC 'T' 15` (R344) -/
  | restHeight
  /-- the end of a HIGH band, line feed (R344) -/
  | restLF
  /-- after the band's last unit: lnum, LNUM and BANDCNT advance (R341) -/
  | bandEnd
  /-- soft eject, `ESC 'T' 16` (R352) -/
  | softHeight
  /-- soft eject, nlf (R352) -/
  | softCount
  /-- soft eject, the line feeds (R352) -/
  | softLF
  /-- formfeed eject, the back-up bytes, if any (R353) -/
  | ffQuirk
  /-- formfeed eject, FF (R353) -/
  | ffFF
  /-- reset sequence, `ESC '<'` (R356) -/
  | resetDir
  /-- reset sequence, `ESC 'T' 16` (R356) -/
  | resetHeight
  /-- reset sequence, `ESC 'B'` or `ESC 'A'` (R356) -/
  | resetPitch
  /-- reset sequence, `ESC 'E'` (R356) -/
  | resetChar
  /-- PageDone (R361) -/
  | pageDone
  deriving DecidableEq, Repr

/-- The outstanding port transaction, at most one (R120). Each carries the number it was issued under (log 4). An Emit
holds its byte string, its kind (R320) and, within the event that delivers it, the sink's answer. -/
inductive Port where
  | idle
  | source (tag : Nat) (row : BitVec 16) (ch : BitVec 2)
  | sink (tag : Nat) (raw : Bool) (bytes : List Byte) (answer : Option Nat)
  deriving DecidableEq, Repr

/-- What the host sees on its bus after a CSR access: a read's data and whether the access got an error response
(R104, R200, R201). -/
inductive BusResponse where
  | none
  | read (data : Word) (error : Bool)
  | write (error : Bool)
  deriving DecidableEq, Repr

/-- The three responses of the scan-line source (R110). -/
inductive RowResponse where
  | row (d : List Byte)
  | endOfPage
  | fail
  deriving DecidableEq, Repr

/-- The atomic events (R121, R410): a host access, a move of the sequencer, a response of the source or of the sink to
the transaction of a given number, and the reset input. -/
inductive Event where
  | host (a : BusAccess)
  | sequencer
  | source (tag : Nat) (r : RowResponse)
  | sink (tag : Nat) (count : Nat)
  | hardReset
  deriving DecidableEq, Repr

/-- The bytes of one internal buffer: (index, byte) pairs, indices strictly rising, no byte 0x00 listed. A byte that is
not listed reads as 0x00 (log 6). -/
abbrev Memory := List Host.Cell

/-! ### The state -/

/-- The whole state (R30, R86). -/
structure State where
  /-- WMAX, PBUF_CAP and ID_VALUE (R8); constant -/
  params : Params
  /-- STATUS.BUSY (R36) -/
  busy : Bool
  /-- STATUS.DONE, ERR, CMDERR, WLOCK (R37 to R40) -/
  flags : EventBits
  /-- STATUS.STATE (R41) -/
  phase : Phase
  /-- IE (R42) -/
  ie : EventBits
  /-- ERRINFO, ERRROW, ERREXP, ERRACT (R43 to R46) -/
  errRegs : ErrRegs
  /-- the RW-L registers (R47 to R62) -/
  conf : ConfRegs
  /-- XIN0, XIN1 (R63) -/
  xin0 : Word
  xin1 : Word
  /-- XOUT0, XOUT1 (R64) -/
  xout0 : Word
  xout1 : Word
  /-- LNUM, BANDCNT, BYTECNT, ADV144 (R65 to R68) -/
  prog : Progress
  /-- the sequencer position (R80) -/
  seq : Seq
  /-- the loop variables (R81) -/
  loop : LoopVars
  /-- LH (R82) -/
  lh : BitVec 7
  /-- BBUF, TBUF, PBUF (R83 to R85) -/
  bbuf : Memory
  tbuf : Memory
  pbuf : Memory
  /-- the outstanding port transaction (R120) -/
  port : Port
  /-- the output stream, in order (R100, R115) -/
  out : List Byte
  /-- the host bus response of the last CSR access (R104, R200) -/
  bus : BusResponse
  /-- MODEL's own: the events still to come (log 2) -/
  inbox : List Event
  /-- MODEL's own: the number of the next port transaction (log 4) -/
  txn : Nat
  /-- MODEL's own: the number of the next free draw (logs 5 to 7) -/
  draws : Nat
  deriving DecidableEq, Repr

/-! ### Reasons to stop -/

/-- The machine stops with a fault only where the spec says that a model treats the case as a fault, or in a state that
breaks the spec's own limits. Every one is safe: no behaviour of the block is replaced by another. -/
inductive Fault where
  /-- the source event: a Row of other than W bytes (R111, I7). Safe: outside the port's contract. -/
  | rowLength
  /-- a wire unit's answer: an accepted count above the unit's length (R116, I8). Safe: outside the port's contract. -/
  | sinkOvercount
  /-- the sequencer or a source response: the running page's configuration is one START refuses (I11), or a loop
  variable is past its end, so that a buffer would be indexed outside (R83 to R85). Safe: no page is in such a state. -/
  | brokenPage
  /-- a wire unit: it would be issued while another transaction is outstanding (R120). Safe: the sequencer never does. -/
  | portConflict
  deriving DecidableEq, Repr

/-- The machine refuses: there is no instruction to run. -/
inductive Refusal where
  /-- exec: the instruction has no meaning in the model yet. Safe. -/
  | notModelled (mnemonic : String)
  /-- the sink event: the outstanding bytes are no unit of R145, for the decoder's reason. Safe: R160, the block emits
  no such bytes. -/
  | undecodable (why : Reject)
  deriving DecidableEq, Repr

/-! ### Reset -/

/-- All four bits 0. -/
def EventBits.clear : EventBits := ⟨false, false, false, false⟩

/-- Four registers with one value. -/
def Quad.all {α : Type} (a : α) : Quad α := ⟨a, a, a, a⟩

/-- ERRINFO, ERRROW, ERREXP and ERRACT at 0 (R43 to R46). -/
def ErrRegs.clear : ErrRegs := ⟨.none, 0, 0, 0, 0, 0⟩

/-- LNUM, BANDCNT, BYTECNT and ADV144 at 0 (R65 to R68). -/
def Progress.clear : Progress := ⟨0, 0, 0, 0⟩

/-- CFG = 0x00000010: LOW, one channel (R47). -/
def Cfg.reset : Cfg := ⟨.low, 1, false, false, false, 0⟩

/-- The configuration registers after hard reset (R32, R410). -/
def ConfRegs.reset : ConfRegs :=
  { cfg := Cfg.reset, width := 0, height := 0, pageLen := 1584, chOrder := 0x39, kDigit := 0x6C,
    pitchDat := Quad.all 0, pitchLen := Quad.all 0, quirkLen := 0, quirkDat := Quad.all 0 }

/-- The loop variables while IDLE: unspecified and never read (R81), zero here (log 7). -/
def LoopVars.reset : LoopVars := ⟨0, 0, 0, 0, 0, 0, 0⟩

/-- The state after hard reset of an implementation with the given parameters (R410), with nothing on the ports' or the
host's side yet. -/
def State.resetWith (c : Params) : State :=
  { params := c, busy := false, flags := EventBits.clear, phase := .idle, ie := EventBits.clear,
    errRegs := ErrRegs.clear, conf := ConfRegs.reset, xin0 := 0, xin1 := 0, xout0 := 0, xout1 := 0,
    prog := Progress.clear, seq := .idle, loop := LoopVars.reset, lh := 16, bbuf := [], tbuf := [], pbuf := [],
    port := .idle, out := [], bus := .none, inbox := [], txn := 0, draws := 0 }

/-- The machine right after reset, in the reference configuration (R8, R410, R412). -/
def State.reset : State := State.resetWith Params.default

end Sys2Proof.Machine
end

