-- ==== Sys2Proof/Machine/Flags.lean ====
section
/-! DEFINITION. The status word, its write-one-to-clear bits, the interrupt enables and the interrupt line
(10_state.md R35 to R42, R73; 60_exceptions.md R390). -/

namespace Sys2Proof.Machine

/-- The code of a phase in STATUS.STATE (R41). -/
def Phase.code : Phase → BitVec 3
  | .idle => 0
  | .init => 1
  | .assemble => 2
  | .encode => 3
  | .finish => 4

/-- The code of an error in ERRINFO.ERRCODE (R43, R370). -/
def ErrCode.code : ErrCode → BitVec 4
  | .none => 0
  | .config => 1
  | .alloc => 2
  | .source => 3
  | .write => 4

/-- One bit of a register. -/
def bit (b : Bool) : BitVec 1 := if b then 1#1 else 0#1

/-- The four event bits at their places, bits 4 to 1, with bit 0 given. -/
def EventBits.word (f : EventBits) (bit0 : Bool) : BitVec 5 :=
  bit f.wlock ++ bit f.cmdErr ++ bit f.err ++ bit f.done ++ bit bit0

/-- STATUS as it reads: STATE << 8 | WLOCK << 4 | CMDERR << 3 | ERR << 2 | DONE << 1 | BUSY (R35). -/
def statusWord (s : State) : Word := (s.phase.code ++ (0#3 ++ s.flags.word s.busy)).zeroExtend 32

/-- IE as it reads: enables in bits 4 to 1, the rest 0 (R42). -/
def ieWord (s : State) : Word := (s.ie.word false).zeroExtend 32

/-- The event bits of a word: bits 1 to 4 (R35, R42). -/
def EventBits.ofWord (v : Word) : EventBits :=
  ⟨v.getLsbD 1, v.getLsbD 2, v.getLsbD 3, v.getLsbD 4⟩

/-- A write-one-to-clear write: each bit whose bit in the written value is 1 becomes 0 (R35, R124, R201). -/
def EventBits.clearBy (f v : EventBits) : EventBits :=
  ⟨f.done && !v.done, f.err && !v.err, f.cmdErr && !v.cmdErr, f.wlock && !v.wlock⟩

/-- ERRINFO as it reads: ERRCHAN << 8 | SUB << 4 | ERRCODE (R43, R380). -/
def ErrRegs.infoWord (e : ErrRegs) : Word := (e.chan ++ (e.sub ++ e.code.code)).zeroExtend 32

/-- The interrupt output: a set status bit whose enable is set (R390). -/
def State.irq (s : State) : Bool :=
  s.flags.done && s.ie.done || s.flags.err && s.ie.err || s.flags.cmdErr && s.ie.cmdErr ||
    s.flags.wlock && s.ie.wlock

end Sys2Proof.Machine
end

