-- ==== Sys2Proof/Machine/Ops.lean ====
section
/-! DEFINITION. The operations that the meanings share: the buffers' bytes, the constants of a mode, the configuration
fields, the error entry (60_exceptions.md R380), the abandoning of a transaction (40_host_commands.md R213) and the two
port transactions (20_memory.md R110, R115; 44_protocol_driver.md R320). -/

namespace Sys2Proof.Machine

open Sys2Proof.Config

/-- What a meaning answers. -/
abbrev Result := Host.Outcome State Fault Refusal

/-! ### Buffers -/

/-- What a byte of a buffer reads as that nothing has written, or that the last write set to 0 (log 6). -/
def Memory.unlisted : Byte := 0

/-- The byte at an index. -/
def Memory.read : Memory → Nat → Byte
  | [], _ => Memory.unlisted
  | (x, b) :: m, a => if a = x then b else if a < x then Memory.unlisted else Memory.read m a

/-- Write one byte, keeping the canonical form: in order, and a byte equal to an unlisted one is not listed. -/
def Memory.write (a : Nat) (b : Byte) : Memory → Memory
  | [] => if b = Memory.unlisted then [] else [(a, b)]
  | (x, c) :: m =>
    if a < x then if b = Memory.unlisted then (x, c) :: m else (a, b) :: (x, c) :: m
    else if a = x then if b = Memory.unlisted then m else (a, b) :: m
    else (x, c) :: Memory.write a b m

/-- Every index listed is above `lo`, they rise strictly, and no listed byte is the unlisted one. -/
def Memory.wfAbove (lo : Option Nat) : Memory → Bool
  | [] => true
  | (x, b) :: m =>
    (match lo with | .none => true | .some l => decide (l < x)) && decide (b ≠ Memory.unlisted) &&
      Memory.wfAbove (some x) m

/-- The canonical form. -/
def Memory.wf (m : Memory) : Bool := Memory.wfAbove none m

/-- Write a string of bytes at rising indices. -/
def Memory.writeRange (a : Nat) : List Byte → Memory → Memory
  | [], m => m
  | b :: bs, m => Memory.writeRange (a + 1) bs (Memory.write a b m)

/-- The n bytes from an index on, in order. -/
def Memory.readRange (m : Memory) (a : Nat) : Nat → List Byte
  | 0 => []
  | n + 1 => Memory.read m a :: Memory.readRange m (a + 1) n

/-! ### Numbered registers -/

/-- Register number i of four. -/
def Quad.get {α : Type} (q : Quad α) (i : BitVec 2) : α :=
  match i.toNat with
  | 0 => q.r0
  | 1 => q.r1
  | 2 => q.r2
  | _ => q.r3

/-- Write register number i of four. -/
def Quad.set {α : Type} (q : Quad α) (i : BitVec 2) (a : α) : Quad α :=
  match i.toNat with
  | 0 => { q with r0 := a }
  | 1 => { q with r1 := a }
  | 2 => { q with r2 := a }
  | _ => { q with r3 := a }

/-! ### The constants of a mode (R10) -/

/-- The MODE code (R48). -/
def Mode.code : Mode → BitVec 2
  | .low => 0
  | .med => 1
  | .high => 2
  | .lq => 3

/-- The mode of a MODE code; all four are legal (R48). -/
def Mode.ofCode (b : BitVec 2) : Mode :=
  match b.toNat with
  | 0 => .low
  | 1 => .med
  | 2 => .high
  | _ => .lq

/-- The passes P of a mode. -/
def Mode.passes : Mode → Nat
  | .low => 1
  | .med => 1
  | .high => 2
  | .lq => 3

/-- The stride S of a mode, in bytes per logical column. -/
def Mode.stride : Mode → Nat
  | .low => 1
  | .med => 1
  | .high => 1
  | .lq => 3

/-! ### The configuration as the page procedure reads it (R330) -/

/-- W, the row width in bytes (R54). -/
def ConfRegs.rowBytes (c : ConfRegs) : Nat := c.width.toNat

/-- H, the page height in rows (R55). -/
def ConfRegs.rows (c : ConfRegs) : Nat := c.height.toNat

/-- N, the channel count (R49). -/
def ConfRegs.channels (c : ConfRegs) : Nat := c.cfg.nch.toNat

/-- P (R10). -/
def ConfRegs.passes (c : ConfRegs) : Nat := c.cfg.mode.passes

/-- S (R10). -/
def ConfRegs.stride (c : ConfRegs) : Nat := c.cfg.mode.stride

/-- The printed columns of a segment, 8W (R280). -/
def ConfRegs.columns (c : ConfRegs) : Nat := 8 * c.rowBytes

/-- RLEN, the bytes of one channel's region: 8 × P × W (R85, R262). -/
def ConfRegs.regionLen (c : ConfRegs) : Nat := 8 * c.passes * c.rowBytes

/-- The active mode's PITCHLEN (R60). -/
def ConfRegs.activePitchLen (c : ConfRegs) : Nat := (c.pitchLen.get c.cfg.mode.code).toNat

/-- The active mode's EJFF bit: the formfeed eject (R53, R351). -/
def ConfRegs.formfeedEject (c : ConfRegs) : Bool := c.cfg.ejff.getLsbD c.cfg.mode.code.toNat

/-- Slot i of CHORDER (R57). -/
def ConfRegs.orderSlot (c : ConfRegs) (i : Nat) : BitVec 2 := c.chOrder.extractLsb' (2 * i) 2

/-- The channel identifier of slot ci: BLACK with one channel, else CHORDER's (R253, R112). -/
def ConfRegs.chanId (c : ConfRegs) (ci : BitVec 2) : BitVec 2 := if c.cfg.nch = 4 then c.orderSlot ci.toNat else 0

/-- The ribbon digit of a channel identifier (R58, R322). -/
def ConfRegs.ribbonDigit (c : ConfRegs) (ch : BitVec 2) : BitVec 2 := c.kDigit.extractLsb' (2 * ch.toNat) 2

/-- The pitch bytes of the active mode, byte 0 first (R59, R333). -/
def ConfRegs.pitchBytes (c : ConfRegs) : List Byte :=
  (List.range c.activePitchLen).map (packedByte (c.pitchDat.get c.cfg.mode.code))

/-- The back-up bytes, byte 0 first: byte t is byte t mod 4 of QUIRKDAT_(t div 4) (R62, R353). -/
def ConfRegs.quirkBytes (c : ConfRegs) : List Byte :=
  (List.range c.quirkLen.toNat).map fun t => packedByte (c.quirkDat.get (BitVec.ofNat 2 (t / 4))) (t % 4)

/-! ### START's checks (R203, R375, R376) -/

/-- What a failed check writes to the error registers (R204). -/
structure CheckFailure where
  code : ErrCode
  sub : BitVec 4
  expected : Word
  actual : Word
  deriving DecidableEq, Repr

/-- CONFIG with its sub-reason and the offending value (R204, R375). -/
def configFail (sub : BitVec 4) (v : Nat) : Option CheckFailure := some ⟨.config, sub, BitVec.ofNat 32 v, 0⟩

/-- ALLOC with its sub-reason, the bytes needed and the capacity (R204, R376). -/
def allocFail (sub : BitVec 4) (need cap : Nat) : Option CheckFailure :=
  some ⟨.alloc, sub, BitVec.ofNat 32 need, BitVec.ofNat 32 cap⟩

/-- The four CHORDER slots are a permutation of 0, 1, 2, 3 (R57). -/
def orderIsPermutation (c : ConfRegs) : Bool :=
  [0#2, 1#2, 2#2, 3#2].all fun ch => [0, 1, 2, 3].any fun i => c.orderSlot i == ch

/-- The checks in the order of R203; the first that fails is the answer, none if the configuration is accepted. -/
def startCheck (k : Params) (c : ConfRegs) : Option CheckFailure :=
  if c.channels ≠ 1 ∧ c.channels ≠ 4 then configFail 1 c.channels
  else if c.rowBytes = 0 ∨ 1249 < c.rowBytes then configFail 2 c.rowBytes
  else if c.channels = 4 ∧ orderIsPermutation c = false then configFail 3 c.chOrder.toNat
  else if 4 < c.activePitchLen then configFail 4 c.activePitchLen
  else if c.formfeedEject = true ∧ 16 < c.quirkLen.toNat then configFail 5 c.quirkLen.toNat
  else if k.wmax < c.rowBytes then allocFail 1 (8 * c.rowBytes) (8 * k.wmax)
  else if k.pbufCap < c.channels * c.regionLen then allocFail 2 (c.channels * c.regionLen) k.pbufCap
  else none

/-- The page that runs, if one does, is one that START accepts: its configuration passes every check. -/
def pageConfigOk (s : State) : Bool := startCheck s.params s.conf == none

/-! ### Ending a page -/

/-- The error entry (R380): the error registers, ERR, and the page's end. The counters, the configuration, IE, XIN,
XOUT, LH and the buffers keep their values; no transaction of the page is left outstanding. -/
def raise (e : ErrRegs) (s : State) : State :=
  { s with errRegs := e, flags := { s.flags with err := true }, busy := false, phase := .idle, seq := .idle,
           port := .idle }

/-- SOURCE: the row and the channel of the SourceRead that failed (R377). -/
def raiseSource (row : BitVec 16) (ch : BitVec 2) (s : State) : State := raise ⟨.source, 0, ch, row, 0, 0⟩ s

/-- WRITE: the unit's length and the count the sink took (R378). -/
def raiseWrite (n k : Nat) (s : State) : State :=
  raise ⟨.write, 0, 0, 0, BitVec.ofNat 32 n, BitVec.ofNat 32 k⟩ s

/-- There is no return from an error (R381): a page that stopped is run again by a START, and nothing else. The other
end of a page is PageDone (R361). -/
def pageDone (s : State) : State :=
  { s with flags := { s.flags with done := true }, busy := false, phase := .idle, seq := .idle }

/-- The bytes of an abandoned Emit that the sink takes: a prefix whose length is the free draw, 0 to len(s) (R213, I9,
log 5). -/
def abandonedBytes (draw : Nat) (bytes : List Byte) : List Byte :=
  bytes.take (abandonedPrefix draw % (bytes.length + 1))

/-- Abandon the outstanding transaction, if any (R213): an Emit's prefix reaches the output stream, BYTECNT does not
count it, and a later response finds no transaction of its number. -/
def abandon (s : State) : State :=
  match s.port with
  | .idle => s
  | .source _ _ _ => { s with port := .idle }
  | .sink _ _ bytes _ =>
    { s with port := .idle, out := s.out ++ abandonedBytes s.draws bytes, draws := s.draws + 1 }

/-! ### What a reset leaves unspecified -/

/-- A buffer of n bytes whose contents are the free draw's (R83 to R85, R212, I1, log 6). -/
def unspecifiedBuffer (draw which n : Nat) : Memory := Memory.writeRange 0 ((unspecifiedBytes draw which).take n) []

/-- Loop variables whose values are the free draw's (R81, I2, log 7). -/
def unspecifiedLoop (draw : Nat) : LoopVars :=
  { lnum := BitVec.ofNat 17 (unspecifiedNumber draw 0), ci := BitVec.ofNat 2 (unspecifiedNumber draw 1)
    ch := BitVec.ofNat 2 (unspecifiedNumber draw 2), p := BitVec.ofNat 2 (unspecifiedNumber draw 3)
    s := BitVec.ofNat 3 (unspecifiedNumber draw 4), h := BitVec.ofNat 1 (unspecifiedNumber draw 5)
    nlf := BitVec.ofNat 13 (unspecifiedNumber draw 6) }

/-- The buffers and the loop variables take free values. -/
def forget (s : State) : State :=
  { s with bbuf := unspecifiedBuffer s.draws 0 (8 * s.params.wmax)
           tbuf := unspecifiedBuffer s.draws 1 (8 * s.params.wmax)
           pbuf := unspecifiedBuffer s.draws 2 s.params.pbufCap
           loop := unspecifiedLoop s.draws, draws := s.draws + 1 }

/-! ### Port transactions -/

/-- Issue SourceRead(r, ch) (R110). -/
def issueSource (row : BitVec 16) (ch : BitVec 2) (s : State) : State :=
  { s with port := .source s.txn row ch, txn := s.txn + 1 }

/-- Issue the request of Emit(bytes) (R115, R320). -/
def issueEmit (raw : Bool) (bytes : List Byte) (s : State) : State :=
  { s with port := .sink s.txn raw bytes none, txn := s.txn + 1 }

/-- What the count k means for the output stream and BYTECNT (R115, R320): the first k bytes are appended and counted,
and the transaction is over. -/
def acceptBytes (bytes : List Byte) (k : Nat) (s : State) : State :=
  { s with port := .idle, out := s.out ++ bytes.take k,
           prog := { s.prog with byteCnt := s.prog.byteCnt + BitVec.ofNat 32 k } }

/-- The response part of Emit (R320): count, then WRITE on a short write, else the unit's own effect. -/
def completeEmit (bytes : List Byte) (k : Nat) (effect : State → State) (s : State) : Result :=
  if bytes.length < k then .fault .sinkOvercount
  else if k < bytes.length then .next (raiseWrite bytes.length k (acceptBytes bytes k s))
  else .next (effect (acceptBytes bytes k s))

/-- Emit (R320), the meaning every wire unit shares: with no transaction outstanding, issue the request; with its own
request outstanding, wait until the sink has answered, then complete (log 9). -/
def emitUnit (raw : Bool) (bytes : List Byte) (effect : State → State) (s : State) : Result :=
  match s.port with
  | .idle => .next (issueEmit raw bytes s)
  | .source _ _ _ => .fault .portConflict
  | .sink _ raw' bytes' answer =>
    if raw' = raw ∧ bytes' = bytes then
      match answer with
      | none => .next s
      | some k => completeEmit bytes k effect s
    else .fault .portConflict

end Sys2Proof.Machine
end

