-- ==== Sys2Proof/Machine/Registers.lean ====
section
/-! DEFINITION. The CSR file: the map from offsets to registers, the access types, and what each register reads as and
takes from a write (10_state.md section 2; 40_host_commands.md R200, R201). -/

namespace Sys2Proof.Machine

/-- The registers of the window (R32). PITCHDAT_m, PITCHLEN_m and QUIRKDAT_q carry their number. -/
inductive Reg where
  | id | cmd | status | ie | errInfo | errRow | errExp | errAct
  | cfg | width | height | pageLen | chOrder | kDigit
  | pitchDat (m : BitVec 2) | pitchLen (m : BitVec 2)
  | quirkLen | quirkDat (q : BitVec 2)
  | xin0 | xin1 | xout0 | xout1
  | lnum | bandCnt | byteCnt | adv144 | capW | capP
  | reserved
  deriving DecidableEq, Repr

/-- The access types (R32). `cmd` is WO: its write issues a command. -/
inductive Access where
  | ro | wo | rw | rwl | w1c | reserved
  deriving DecidableEq, Repr

/-- The table of R32, reserved offsets left out. -/
def regMap : List (Nat × Reg) :=
  [(0x00, .id), (0x04, .cmd), (0x08, .status), (0x0C, .ie),
   (0x10, .errInfo), (0x14, .errRow), (0x18, .errExp), (0x1C, .errAct),
   (0x20, .cfg), (0x24, .width), (0x28, .height), (0x2C, .pageLen), (0x30, .chOrder), (0x34, .kDigit),
   (0x40, .pitchDat 0), (0x44, .pitchLen 0), (0x48, .pitchDat 1), (0x4C, .pitchLen 1),
   (0x50, .pitchDat 2), (0x54, .pitchLen 2), (0x58, .pitchDat 3), (0x5C, .pitchLen 3),
   (0x60, .quirkLen), (0x64, .quirkDat 0), (0x68, .quirkDat 1), (0x6C, .quirkDat 2), (0x70, .quirkDat 3),
   (0x80, .xin0), (0x84, .xin1), (0x88, .xout0), (0x8C, .xout1),
   (0x90, .lnum), (0x94, .bandCnt), (0x98, .byteCnt), (0x9C, .adv144), (0xA0, .capW), (0xA4, .capP)]

/-- The register at an aligned offset; every other offset of the window is reserved (R71). -/
def Reg.at (off : BitVec 8) : Reg := (regMap.lookup off.toNat).getD .reserved

/-- The access type of a register (R32). -/
def Reg.access : Reg → Access
  | .id | .errInfo | .errRow | .errExp | .errAct | .xout0 | .xout1 | .lnum | .bandCnt | .byteCnt | .adv144
  | .capW | .capP => .ro
  | .cmd => .wo
  | .status => .w1c
  | .ie | .xin0 | .xin1 => .rw
  | .cfg | .width | .height | .pageLen | .chOrder | .kDigit | .pitchDat _ | .pitchLen _ | .quirkLen
  | .quirkDat _ => .rwl
  | .reserved => .reserved

/-- CFG as it reads: EJFF [15:12], RLS [10], HCP [9], DIR [8], NCH [6:4], MODE [1:0], reserved bits 0 (R47). -/
def Cfg.word (c : Cfg) : Word :=
  (c.ejff ++ (0#1 ++ (bit c.rls ++ (bit c.hcp ++ (bit c.dir ++ (0#1 ++ (c.nch ++ (0#2 ++ c.mode.code)))))))).zeroExtend 32

/-- The fields of a written CFG word; reserved bits are dropped (R32, R47). -/
def Cfg.ofWord (v : Word) : Cfg :=
  { mode := Mode.ofCode (v.extractLsb' 0 2), nch := v.extractLsb' 4 3, dir := v.getLsbD 8, hcp := v.getLsbD 9,
    rls := v.getLsbD 10, ejff := v.extractLsb' 12 4 }

/-- value(OFF) of R200: what a register reads as (R33 to R71). -/
def readReg (s : State) : Reg → Word
  | .id => s.params.idValue
  | .cmd => 0
  | .status => statusWord s
  | .ie => ieWord s
  | .errInfo => s.errRegs.infoWord
  | .errRow => s.errRegs.row.zeroExtend 32
  | .errExp => s.errRegs.expected
  | .errAct => s.errRegs.actual
  | .cfg => s.conf.cfg.word
  | .width => s.conf.width.zeroExtend 32
  | .height => s.conf.height.zeroExtend 32
  | .pageLen => s.conf.pageLen.zeroExtend 32
  | .chOrder => s.conf.chOrder.zeroExtend 32
  | .kDigit => s.conf.kDigit.zeroExtend 32
  | .pitchDat m => s.conf.pitchDat.get m
  | .pitchLen m => (s.conf.pitchLen.get m).zeroExtend 32
  | .quirkLen => s.conf.quirkLen.zeroExtend 32
  | .quirkDat q => s.conf.quirkDat.get q
  | .xin0 => s.xin0
  | .xin1 => s.xin1
  | .xout0 => s.xout0
  | .xout1 => s.xout1
  | .lnum => s.prog.lnum.zeroExtend 32
  | .bandCnt => s.prog.bandCnt
  | .byteCnt => s.prog.byteCnt
  | .adv144 => s.prog.adv144
  | .capW => BitVec.ofNat 32 s.params.wmax
  | .capP => BitVec.ofNat 32 s.params.pbufCap
  | .reserved => 0

/-- A write to an RW-L register, restricted to its defined bits (R47 to R62, R201). Any other register leaves the
configuration as it is. -/
def writeConf (r : Reg) (v : Word) (c : ConfRegs) : ConfRegs :=
  match r with
  | .cfg => { c with cfg := Cfg.ofWord v }
  | .width => { c with width := v.extractLsb' 0 16 }
  | .height => { c with height := v.extractLsb' 0 16 }
  | .pageLen => { c with pageLen := v.extractLsb' 0 16 }
  | .chOrder => { c with chOrder := v.extractLsb' 0 8 }
  | .kDigit => { c with kDigit := v.extractLsb' 0 8 }
  | .pitchDat m => { c with pitchDat := c.pitchDat.set m v }
  | .pitchLen m => { c with pitchLen := c.pitchLen.set m (v.extractLsb' 0 3) }
  | .quirkLen => { c with quirkLen := v.extractLsb' 0 5 }
  | .quirkDat q => { c with quirkDat := c.quirkDat.set q v }
  | _ => c

/-- A write to an RW register: IE, XIN0 or XIN1 (R42, R63). -/
def writeRw (r : Reg) (v : Word) (s : State) : State :=
  match r with
  | .ie => { s with ie := EventBits.ofWord v }
  | .xin0 => { s with xin0 := v }
  | .xin1 => { s with xin1 := v }
  | _ => s

/-- A write to an RW-L register: refused with WLOCK while BUSY = 1 (R72, R201). -/
def writeLocked (r : Reg) (v : Word) (s : State) : State :=
  if s.busy then { s with flags := { s.flags with wlock := true } } else { s with conf := writeConf r v s.conf }

/-- A write to STATUS: write one to clear (R35, R201). -/
def writeStatus (v : Word) (s : State) : State := { s with flags := s.flags.clearBy (EventBits.ofWord v) }

end Sys2Proof.Machine
end

