-- ==== Sys2Proof/Machine/Transposer.lean ====
section
/-! DEFINITION. The bit transposer XP (41_transposer.md): the 8×8 bit-matrix transpose, pure and stateless, and its use on
every byte-column of the band buffer. -/

namespace Sys2Proof.Machine

/-- Eight bytes, row b of an 8×8 bit matrix each (R230). -/
abbrev Block := Fin 8 → Byte

/-- Transpose8: bit b of output byte k is bit k of input byte b (R230). -/
def transpose8 (x : Block) : Block := fun k => BitVec.ofFnLE fun b => (x b).getLsbD k

/-- The eight bytes of a block in order. -/
def Block.bytes (x : Block) : List Byte := [x 0, x 1, x 2, x 3, x 4, x 5, x 6, x 7]

/-- The index of BBUF[i][j] (R83). -/
def bbufIndex (wmax i j : Nat) : Nat := i * wmax + j

/-- Byte-column j of the band buffer (R232). -/
def bbufColumn (wmax : Nat) (bbuf : Memory) (j : Nat) : Block := fun b => bbuf.read (bbufIndex wmax b j)

/-- TransposeColumn(j) for j in [0, n): the eight output bytes of column j go to TBUF[8j .. 8j+7] (R232, R256). -/
def transposeColumns (wmax : Nat) (bbuf : Memory) : Nat → Memory → Memory
  | 0, tbuf => tbuf
  | n + 1, tbuf =>
    (transposeColumns wmax bbuf n tbuf).writeRange (8 * n) (transpose8 (bbufColumn wmax bbuf n)).bytes

/-- The block in XIN0 and XIN1: byte b < 4 in XIN0, byte b ≥ 4 in XIN1 (R63, R210). -/
def blockOfWords (w0 w1 : Word) : Block :=
  fun b => if b.val < 4 then packedByte w0 b.val else packedByte w1 (b.val - 4)

/-- The first word of a packed block, bytes 0 to 3 (R64, R210). -/
def Block.word0 (x : Block) : Word := packWord (x 0) (x 1) (x 2) (x 3)

/-- The second word of a packed block, bytes 4 to 7 (R64, R210). -/
def Block.word1 (x : Block) : Word := packWord (x 4) (x 5) (x 6) (x 7)

end Sys2Proof.Machine
end

