-- ==== Sys2Proof/Machine/Commands.lean ====
section
/-! DEFINITION. The host commands (40_host_commands.md R202 to R213): first what each does to the block, then the
meaning of each CMD row, which also acknowledges the bus write that carries it. -/

namespace Sys2Proof.Machine

/-- The host's bus write got an ordinary response (R201). -/
def ackWrite (s : State) : State := { s with bus := .write false }

/-- CMDERR <- 1 and nothing else (R142, R202). -/
def setCmdErr (s : State) : State := { s with flags := { s.flags with cmdErr := true } }

/-- NOP: no state changes (R205). -/
def doNop (s : State) : State := s

/-- An illegal OP (R142). -/
def doIllegal (s : State) : State := setCmdErr s

/-- The registers that START clears before its checks (R203). -/
def startClear (s : State) : State :=
  { s with flags := { s.flags with done := false, err := false }, errRegs := ErrRegs.clear, prog := Progress.clear }

/-- A failed check: the error registers and ERR; BUSY stays 0 and STATE stays IDLE (R204). -/
def startFail (f : CheckFailure) (s : State) : State :=
  { s with errRegs := ⟨f.code, f.sub, 0, 0, f.expected, f.actual⟩, flags := { s.flags with err := true } }

/-- The acceptance: BUSY, STATE = INIT, and the sequencer at the start of RunPage (R203, R330). -/
def startAccept (s : State) : State := { s with busy := true, phase := .init, seq := .initDir }

/-- START: refused with CMDERR while BUSY = 1 (R202); else clear, check, and fail or accept (R203, R204). -/
def doStart (s : State) : State :=
  if s.busy then setCmdErr s
  else
    match startCheck s.params s.conf with
    | some f => startFail f (startClear s)
    | none => startAccept (startClear s)

/-- XPOSE: refused with CMDERR while BUSY = 1 (R202); else XOUT is the transpose of XIN (R210). -/
def doXpose (s : State) : State :=
  if s.busy then setCmdErr s
  else
    { s with xout0 := (transpose8 (blockOfWords s.xin0 s.xin1)).word0
             xout1 := (transpose8 (blockOfWords s.xin0 s.xin1)).word1 }

/-- SRESET (R212): abandon the transaction, and give everything its reset value but the configuration, IE and XIN
(R411). The buffers' contents are unspecified (log 6), the loop variables' while IDLE too (log 7): both are free. -/
def doSreset (s : State) : State :=
  { forget (abandon s) with
    seq := .idle, busy := false, flags := EventBits.clear, phase := .idle, errRegs := ErrRegs.clear,
    prog := Progress.clear, xout0 := 0, xout1 := 0, lh := 16 }

/-- Dispatch of a CMD write by its OP (R202). -/
def dispatchCmd (w : Word) (s : State) : State :=
  match (w.extractLsb' 0 4).toNat with
  | 0x0 => doNop s
  | 0x1 => doStart s
  | 0x2 => doXpose s
  | 0xF => doSreset s
  | _ => doIllegal s

/-- NOP (R205). -/
def execNop (s : State) : Result := .next (ackWrite (doNop s))

/-- START (R203). -/
def execStart (s : State) : Result := .next (ackWrite (doStart s))

/-- XPOSE (R210). -/
def execXpose (s : State) : Result := .next (ackWrite (doXpose s))

/-- OP 0x3 (R142). -/
def execIllegal3 (s : State) : Result := .next (ackWrite (doIllegal s))

/-- OP 0x4 to 0x7, whatever the low bits (R142). -/
def execIllegal4to7 (_lo : BitVec 2) (s : State) : Result := .next (ackWrite (doIllegal s))

/-- OP 0x8 to 0xB, whatever the low bits (R142). -/
def execIllegal8toB (_lo : BitVec 2) (s : State) : Result := .next (ackWrite (doIllegal s))

/-- OP 0xC to 0xD, whatever the low bit (R142). -/
def execIllegalCtoD (_lo : BitVec 1) (s : State) : Result := .next (ackWrite (doIllegal s))

/-- OP 0xE (R142). -/
def execIllegalE (s : State) : Result := .next (ackWrite (doIllegal s))

/-- SRESET (R212). -/
def execSreset (s : State) : Result := .next (ackWrite (doSreset s))

end Sys2Proof.Machine
end

