-- ==== Sys2Proof/Machine/Access.lean ====
section
/-! DEFINITION. The two register accesses, csrr and csrw (40_host_commands.md R200, R201; 20_memory.md R104). -/

namespace Sys2Proof.Machine

/-- An offset is misaligned when its bits [1:0] are not 00 (R104). -/
def misaligned (off : BitVec 8) : Bool := off.extractLsb' 0 2 != 0

/-- csrr OFF: the register's value, and nothing else changes; a misaligned read is answered 0 with a bus error (R200,
R104, R105). -/
def execCsrr (off : BitVec 8) (s : State) : Result :=
  if misaligned off then .next { s with bus := .read 0 true }
  else .next { s with bus := .read (readReg s (Reg.at off)) false }

/-- The effect of an aligned write, by the register's access type (R201). -/
def writeReg (r : Reg) (v : Word) (s : State) : State :=
  match r.access with
  | .ro => s
  | .reserved => s
  | .w1c => writeStatus v s
  | .rw => writeRw r v s
  | .rwl => writeLocked r v s
  | .wo => dispatchCmd v s

/-- csrw OFF, V (R201): a misaligned write changes nothing and gets a bus error (R104). -/
def execCsrw (off : BitVec 8) (v : Word) (s : State) : Result :=
  if misaligned off then .next { s with bus := .write true }
  else .next (ackWrite (writeReg (Reg.at off) v s))

end Sys2Proof.Machine
end

