-- ==== Sys2Proof/Machine/Wire.lean ====
section
/-! DEFINITION. The wire units (30_encoding.md R145 to R157), each one Emit transaction (44_protocol_driver.md R320). -/

namespace Sys2Proof.Machine

/-- A unit whose acceptance has no effect of its own beyond the count (R321). -/
def noEffect (s : State) : State := s

/-- A fully accepted `ESC 'T' dec2(n)` sets LH to n (R82, R320, R321). A field that is no number, which the encoder
never emits (R160), is no dec2(n) and sets nothing. -/
def setLineHeight (f : Dec2) (s : State) : State :=
  match dec2Value f with
  | some n => { s with lh := BitVec.ofNat 7 n }
  | none => s

/-- A fully accepted LF adds LH to ADV144, modulo 2^32 (R68, R320, R321). -/
def advancePaper (s : State) : State :=
  { s with prog := { s.prog with adv144 := s.prog.adv144 + s.lh.zeroExtend 32 } }

/-- `ESC '<'` (R150). -/
def execEscBidi (s : State) : Result := emitUnit false (unitEsc2 chLess) noEffect s

/-- `ESC '>'` (R150). -/
def execEscUni (s : State) : Result := emitUnit false (unitEsc2 chGreater) noEffect s

/-- `ESC 'A'` (R155). -/
def execEscA (s : State) : Result := emitUnit false (unitEsc2 chA) noEffect s

/-- `ESC 'B'` (R155). -/
def execEscB (s : State) : Result := emitUnit false (unitEsc2 chB) noEffect s

/-- `ESC 'E'` (R155). -/
def execEscE (s : State) : Result := emitUnit false (unitEsc2 chE) noEffect s

/-- `ESC 'K' d` (R152). -/
def execEscK (d : BitVec 2) (s : State) : Result := emitUnit false (unitRibbon d) noEffect s

/-- `ESC 'T' nn` (R151). -/
def execEscT (f : Dec2) (s : State) : Result := emitUnit false (unitLineHeight f) (setLineHeight f) s

/-- `ESC 'G' nnnn` with its payload (R146). -/
def execEscG (f : Dec4) (payload : List Byte) (s : State) : Result := emitUnit false (unitData chG f payload) noEffect s

/-- `ESC 'V' nnnn` (R147). -/
def execEscV (f : Dec4) (s : State) : Result := emitUnit false (unitFill chV f 1) noEffect s

/-- `ESC 'C' nnnn` with its payload (R148). -/
def execEscC (f : Dec4) (payload : List Byte) (s : State) : Result := emitUnit false (unitData chC f payload) noEffect s

/-- `ESC 'U' nnnn` (R149). -/
def execEscU (f : Dec4) (s : State) : Result := emitUnit false (unitFill chU f 3) noEffect s

/-- CR (R156). -/
def execCr (s : State) : Result := emitUnit false (unitControl chCR) noEffect s

/-- LF (R156). -/
def execLf (s : State) : Result := emitUnit false (unitControl chLF) advancePaper s

/-- FF (R156); it does not change ADV144 (R321). -/
def execFf (s : State) : Result := emitUnit false (unitControl chFF) noEffect s

/-- RAW: sent unchanged and not parsed (R157, R321). -/
def execRaw (bytes : List Byte) (s : State) : Result := emitUnit true bytes noEffect s

end Sys2Proof.Machine
end

