-- ==== Sys2Proof/Machine/Dispatch.lean ====
section
/-! DEFINITION. The dispatch: one arm per constructor of `Instr`, in the order of spec/opcode_table.json. -/

namespace Sys2Proof.Machine

def exec (i : Instr) (s : State) : Host.Outcome State Fault Refusal :=
  match i with
  | .nop => Sys2Proof.Machine.execNop s
  | .start => Sys2Proof.Machine.execStart s
  | .xpose => Sys2Proof.Machine.execXpose s
  | .illegal3 => Sys2Proof.Machine.execIllegal3 s
  | .illegal4to7 lo => Sys2Proof.Machine.execIllegal4to7 lo s
  | .illegal8toB lo => Sys2Proof.Machine.execIllegal8toB lo s
  | .illegalCtoD lo => Sys2Proof.Machine.execIllegalCtoD lo s
  | .illegalE => Sys2Proof.Machine.execIllegalE s
  | .sreset => Sys2Proof.Machine.execSreset s
  | .csrr off => Sys2Proof.Machine.execCsrr off s
  | .csrw off v => Sys2Proof.Machine.execCsrw off v s
  | .escBidi => Sys2Proof.Machine.execEscBidi s
  | .escUni => Sys2Proof.Machine.execEscUni s
  | .escA => Sys2Proof.Machine.execEscA s
  | .escB => Sys2Proof.Machine.execEscB s
  | .escE => Sys2Proof.Machine.execEscE s
  | .escK d => Sys2Proof.Machine.execEscK d s
  | .escT nn => Sys2Proof.Machine.execEscT nn s
  | .escG nnnn payload => Sys2Proof.Machine.execEscG nnnn payload s
  | .escV nnnn => Sys2Proof.Machine.execEscV nnnn s
  | .escC nnnn payload => Sys2Proof.Machine.execEscC nnnn payload s
  | .escU nnnn => Sys2Proof.Machine.execEscU nnnn s
  | .cr => Sys2Proof.Machine.execCr s
  | .lf => Sys2Proof.Machine.execLf s
  | .ff => Sys2Proof.Machine.execFf s
  | .raw bytes => Sys2Proof.Machine.execRaw bytes s

end Sys2Proof.Machine
end

