-- ==== Sys2Proof/Machine/Band.lean ====
section
/-! DEFINITION. The band assembler BA (42_band_assembler.md): which row a sub-row takes, where it is stored, and where
the transposed bytes of a pass go in the print buffer. The order of its steps is the sequencer's
(Sequencer.lean). -/

namespace Sys2Proof.Machine

/-- RowOffset(mode, s, p), the interleave multiplexer (R251). -/
def rowOffset : Mode → Nat → Nat → Nat
  | .low, s, _ => s
  | .med, s, _ => s
  | .high, s, p => 2 * s + p
  | .lq, s, p => s + 8 * p

/-- The absolute row of the sub-row that the loop variables name (R252). -/
def currentRow (s : State) : Nat := s.loop.lnum.toNat + rowOffset s.conf.cfg.mode s.loop.s.toNat s.loop.p.toNat

/-- BBUF[7 - s][j] <- d[j] for the current sub-row s (R254). -/
def storeRow (d : List Byte) (s : State) : State :=
  { s with bbuf := s.bbuf.writeRange (bbufIndex s.params.wmax (7 - s.loop.s.toNat) 0) d }

/-- A sub-row of W zero bytes: a row at or past H, or an EndOfPage (R252, R255). -/
def storeZeroRow (s : State) : State := storeRow (List.replicate s.conf.rowBytes 0) s

/-- Where printed column i of pass p goes in the region at `base` (R259, R260, R261). -/
def scatterPlace (m : Mode) (w base p i : Nat) : Nat :=
  match m with
  | .low => base + i
  | .med => base + i
  | .high => base + p * (8 * w) + i
  | .lq => base + 3 * i + p

/-- PBUF[place i] <- TBUF[i] for i in [0, n) (R257). -/
def scatterColumns (m : Mode) (w base p : Nat) (tbuf : Memory) : Nat → Memory → Memory
  | 0, pbuf => pbuf
  | n + 1, pbuf =>
    Memory.write (scatterPlace m w base p n) (tbuf.read n) (scatterColumns m w base p tbuf n pbuf)

/-- The first byte of region ci: ci × RLEN (R262). -/
def regionBase (s : State) : Nat := s.loop.ci.toNat * s.conf.regionLen

/-- The transpose and the scatter of the pass whose eight sub-rows are in BBUF (R256, R257). -/
def transposeAndScatter (s : State) : State :=
  let tbuf := transposeColumns s.params.wmax s.bbuf s.conf.rowBytes s.tbuf
  { s with
    tbuf := tbuf
    pbuf := scatterColumns s.conf.cfg.mode s.conf.rowBytes (regionBase s) s.loop.p.toNat tbuf s.conf.columns s.pbuf }

end Sys2Proof.Machine
end

