-- ==== Sys2Proof/Machine/Trim.lean ====
section
/-! DEFINITION. The run scanner, trimmer and bitmap command encoder TE (43_trim_encoder.md): the segment of PBUF that is
sent, its first and last non-zero groups, and the units SYNC and DATA. -/

namespace Sys2Proof.Machine

/-- A group is non-zero unless all S of its bytes are 0x00 (R282). -/
def groupNonzero (pbuf : Memory) (sb stride g : Nat) : Bool :=
  (List.range stride).any fun k => pbuf.read (sb + stride * g + k) != 0

/-- prn_blk and prn_end of a segment, in groups: the first non-zero group, and one past the last; none for an empty
segment (R283, "by scanning from both ends"). -/
def trimBounds (pbuf : Memory) (sb stride ncols : Nat) : Option (Nat × Nat) :=
  match (List.range ncols).find? (groupNonzero pbuf sb stride),
        (List.range ncols).reverse.find? (groupNonzero pbuf sb stride) with
  | some blk, some last => some (blk, last + 1)
  | _, _ => none

/-- The leading run is skipped by a position-sync when it exceeds 7 columns (R285). -/
def needsSync (blk : Nat) : Bool := decide (7 < blk)

/-- The first group that the data unit carries: blk after a position-sync, else 0 (R284, R285). -/
def dataStart (blk : Nat) : Nat := if needsSync blk then blk else 0

/-- SYNC(S, n) (R286): `ESC 'V'` at stride 1, `ESC 'U'` at stride 3. -/
def syncUnit (stride n : Nat) : Instr := if stride = 3 then .escU (dec4 n) else .escV (dec4 n)

/-- DATA(S, n) with its payload (R287): `ESC 'G'` at stride 1, `ESC 'C'` at stride 3. -/
def dataUnit (stride n : Nat) (payload : List Byte) : Instr :=
  if stride = 3 then .escC (dec4 n) payload else .escG (dec4 n) payload

/-- The first PBUF byte of the segment that the loop variables name: the region, or half h of it in HIGH (R280). -/
def segmentBase (s : State) : Nat := regionBase s + s.loop.h.toNat * s.conf.columns

/-- The bounds of the current segment (R283). -/
def currentBounds (s : State) : Option (Nat × Nat) :=
  trimBounds s.pbuf (segmentBase s) s.conf.stride s.conf.columns

/-- The payload from group `start` up to group `fin`, in increasing index, unchanged (R284, R288). -/
def segmentPayload (s : State) (start fin : Nat) : List Byte :=
  s.pbuf.readRange (segmentBase s + s.conf.stride * start) (s.conf.stride * (fin - start))

/-- The data unit of the current segment with bounds (blk, fin) (R284). -/
def currentDataUnit (s : State) (blk fin : Nat) : Instr :=
  dataUnit s.conf.stride (fin - dataStart blk) (segmentPayload s (dataStart blk) fin)

end Sys2Proof.Machine
end

