-- ==== Sys2Proof/Machine/Sequencer.lean ====
section
/-! DEFINITION. The protocol driver PD (44_protocol_driver.md): the page procedure RunPage with Band, Assemble,
EncodeSegment, SoftEject, FormfeedEject, ResetSequence and PageDone, as one action per position `Seq`, and the
sequencer's event, which does all internal work up to the next port transaction (20_memory.md R121(b)). -/

namespace Sys2Proof.Machine

/-- What the sequencer does at a position: internal work, then on; an Emit; a SourceRead; the end of the page; or a
stop. -/
inductive Action where
  | go (s : State)
  | emit (i : Instr) (s : State)
  | read (row : BitVec 16) (ch : BitVec 2) (s : State)
  | done (s : State)
  | stop (f : Fault)
  deriving DecidableEq, Repr

/-- The sequencer is at another position. -/
def atSeq (q : Seq) (s : State) : State := { s with seq := q }

/-- STATE <- a phase (R41, R343). -/
def atPhase (ph : Phase) (s : State) : State := { s with phase := ph }

/-- `ESC 'T'` dec2(n) (R151). -/
def heightUnit (n : Nat) : Instr := .escT (dec2 n)

/-- The directionality select of Init (R331). -/
def dirUnit (c : ConfRegs) : Instr := if c.cfg.dir then .escUni else .escBidi

/-- RibbonSel(ci) (R322). -/
def ribbonUnit (c : ConfRegs) (ci : BitVec 2) : Instr := .escK (c.ribbonDigit (c.chanId ci))

/-- The page has four channels, and so ribbon selects (R322). -/
def colour (c : ConfRegs) : Bool := c.cfg.nch == 4

/-- HIGH's CHANNEL_OUTER cadence: HIGH, N = 4, HCP = 1 (R51, R346). -/
def channelOuter (c : ConfRegs) : Bool := c.cfg.mode == .high && colour c && c.cfg.hcp

/-- Another channel follows slot ci. -/
def moreChannels (s : State) : Bool := decide (s.loop.ci.toNat + 1 < s.conf.channels)

/-- The next slot. -/
def nextChannel (s : State) : State := { s with loop := { s.loop with ci := s.loop.ci + 1 } }

/-- The loop variables are within their ends, so that PBUF and BBUF are indexed inside (R81). -/
def loopInRange (s : State) : Bool :=
  decide (s.loop.ci.toNat < s.conf.channels) && decide (s.loop.p.toNat < s.conf.passes)

/-- nlf = ceil(max(0, PAGELEN - ADV144) / 16) (R352). -/
def softLineFeeds (s : State) : Nat := (s.conf.pageLen.toNat - s.prog.adv144.toNat + 15) / 16

/-- The test of the band loop (R340): a band begins with slot 0, or the loop ends and STATE <- FINISH (R350). -/
def bandTest (s : State) : State :=
  if s.loop.lnum.toNat < s.conf.rows then atSeq .chanBegin { s with loop := { s.loop with ci := 0 } }
  else atSeq (if s.conf.formfeedEject then .ffQuirk else .softHeight) (atPhase .finish s)

/-- The start of channel slot ci: STATE <- ASSEMBLE, and ch of the slot (R253, R342). -/
def chanBegin (s : State) : State :=
  atSeq .asmBegin (atPhase .assemble { s with loop := { s.loop with ch := s.conf.chanId s.loop.ci } })

/-- After a pass: the next one, or the end of Assemble (R250). -/
def afterPass (s : State) : State :=
  if s.loop.p.toNat + 1 < s.conf.passes then
    atSeq .asmRow { s with loop := { s.loop with p := s.loop.p + 1, s := 0 } }
  else atSeq .asmDone s

/-- After sub-row s: the next one, or the transpose and scatter of the pass (R250). -/
def asmNext (s : State) : State :=
  if s.loop.s.toNat < 7 then atSeq .asmRow { s with loop := { s.loop with s := s.loop.s + 1 } }
  else afterPass (transposeAndScatter s)

/-- The cadence after a segment's carriage return (R342, R345, R346, R347). -/
def afterCR (s : State) : State :=
  if s.conf.cfg.mode = .high then
    if channelOuter s.conf then
      if s.loop.h = 0 then atSeq .microHeight s
      else if moreChannels s then atSeq .chanBegin (nextChannel s) else atSeq .restHeight s
    else if s.loop.h = 0 then
      if moreChannels s then atSeq .chanBegin (nextChannel s) else atSeq .microHeight s
    else if moreChannels s then atSeq .half1Begin (nextChannel s) else atSeq .restHeight s
  else if moreChannels s then atSeq .chanBegin (nextChannel s) else atSeq .bandLF s

/-- After the micro-advance: half 1 of this channel (CHANNEL_OUTER), or of every channel from slot 0 (R345, R346). -/
def half1Start (s : State) : State :=
  if channelOuter s.conf then atSeq .segSync { s with loop := { s.loop with h := 1 } }
  else atSeq .half1Begin { s with loop := { s.loop with h := 1, ci := 0 } }

/-- The end of a band: lnum, LNUM and BANDCNT together (R341). -/
def bandEnd (s : State) : State :=
  let lnum := s.loop.lnum + BitVec.ofNat 17 (8 * s.conf.passes)
  atSeq .bandTest
    { s with loop := { s.loop with lnum := lnum }
             prog := { s.prog with lnum := lnum, bandCnt := s.prog.bandCnt + 1 } }

/-- A sub-row's row: zero-filled without a request from H on, else requested (R250, R252). -/
def asmRow (s : State) : Action :=
  if loopInRange s = false then .stop .brokenPage
  else if s.conf.rows ≤ currentRow s then .go (atSeq .asmNext (storeZeroRow s))
  else .read (BitVec.ofNat 16 (currentRow s)) s.loop.ch (atSeq .asmNext s)

/-- EncodeSegment's first half: an empty segment sends nothing; a leading run above 7 columns is skipped (R284, R285). -/
def segSync (s : State) : Action :=
  if loopInRange s = false then .stop .brokenPage
  else
    match currentBounds s with
    | none => .go (atSeq .segCR s)
    | some (blk, _) =>
      if needsSync blk then .emit (syncUnit s.conf.stride blk) (atSeq .segData s) else .go (atSeq .segData s)

/-- EncodeSegment's second half: the data unit (R284, R287). -/
def segData (s : State) : Action :=
  if loopInRange s = false then .stop .brokenPage
  else
    match currentBounds s with
    | none => .go (atSeq .segCR s)
    | some (blk, fin) => .emit (currentDataUnit s blk fin) (atSeq .segCR s)

/-- The action at the sequencer's position. -/
def seqAction (s : State) : Action :=
  match s.seq with
  | .idle => .done s
  | .initDir => .emit (dirUnit s.conf) (atSeq .initHeight s)
  | .initHeight => .emit (heightUnit 16) (atSeq .initPitch s)
  | .initPitch =>
    if 0 < s.conf.activePitchLen then .emit (.raw s.conf.pitchBytes) (atSeq .bandInit s) else .go (atSeq .bandInit s)
  | .bandInit => .go (atSeq .bandTest { s with loop := { s.loop with lnum := 0 } })
  | .bandTest => .go (bandTest s)
  | .chanBegin =>
    if colour s.conf then .emit (ribbonUnit s.conf s.loop.ci) (chanBegin s) else .go (chanBegin s)
  | .asmBegin => .go (atSeq .asmRow { s with loop := { s.loop with p := 0, s := 0 } })
  | .asmRow => asmRow s
  | .asmNext => if loopInRange s then .go (asmNext s) else .stop .brokenPage
  | .asmDone => .go (atSeq .segSync (atPhase .encode { s with loop := { s.loop with h := 0 } }))
  | .segSync => segSync s
  | .segData => segData s
  | .segCR => .emit .cr (atSeq .afterCR s)
  | .afterCR => .go (afterCR s)
  | .bandLF => .emit .lf (atSeq .bandEnd s)
  | .microHeight => .emit (heightUnit 1) (atSeq .microLF s)
  | .microLF => .emit .lf (atSeq .half1Start s)
  | .half1Start => .go (half1Start s)
  | .half1Begin =>
    if colour s.conf then .emit (ribbonUnit s.conf s.loop.ci) (atSeq .segSync s) else .go (atSeq .segSync s)
  | .restHeight => .emit (heightUnit 15) (atSeq .restLF s)
  | .restLF => .emit .lf (atSeq .bandEnd s)
  | .bandEnd => .go (bandEnd s)
  | .softHeight => .emit (heightUnit 16) (atSeq .softCount s)
  | .softCount => .go (atSeq .softLF { s with loop := { s.loop with nlf := BitVec.ofNat 13 (softLineFeeds s) } })
  | .softLF =>
    if s.loop.nlf = 0 then .go (atSeq .resetDir s)
    else .emit .lf { s with loop := { s.loop with nlf := s.loop.nlf - 1 } }
  | .ffQuirk =>
    if 0 < s.conf.quirkLen.toNat then .emit (.raw s.conf.quirkBytes) (atSeq .ffFF s) else .go (atSeq .ffFF s)
  | .ffFF => .emit .ff (atSeq .resetDir s)
  | .resetDir => .emit .escBidi (atSeq .resetHeight s)
  | .resetHeight => .emit (heightUnit 16) (atSeq .resetPitch s)
  | .resetPitch => .emit (if s.conf.cfg.rls then .escA else .escB) (atSeq .resetChar s)
  | .resetChar => .emit .escE (atSeq .pageDone s)
  | .pageDone => .done (pageDone s)

/-- The internal work of one sequencer event, at most n positions of it, up to an action that is not internal. -/
def runInternal : Nat → State → Action
  | 0, s => .go s
  | n + 1, s =>
    match seqAction s with
    | .go s' => runInternal n s'
    | .emit i s' => .emit i s'
    | .read row ch s' => .read row ch s'
    | .done s' => .done s'
    | .stop f => .stop f

/-- Enough positions for any event: 24 sub-rows of two positions each and a few more (R431). `runInternal` never uses
them up. -/
def internalBound : Nat := 64

/-- The sequencer's work in one event (R121(b)). -/
def seqWork (s : State) : Action := runInternal internalBound s

/-- The sequencer is enabled when a page runs and no transaction is outstanding (R121(b)). -/
def seqEnabled (s : State) : Bool := s.busy && s.port == .idle

end Sys2Proof.Machine
end

