-- ==== Sys2Proof/Machine/Events.lean ====
section
/-! DEFINITION. The atomic events (20_memory.md R121): a host access, a move of the sequencer, a response of the source
or of the sink, and hard reset. Where an event runs an instruction, it fetches the instruction's code (the host's bus
access, or the bytes of the outstanding unit), decodes it and calls `exec`. -/

namespace Sys2Proof.Machine

/-- The host's event: the access on the bus is fetched, decoded and run (R106, R121(a)). -/
def hostEvent (a : BusAccess) (s : State) : Result := exec (decodeBus a) s

/-- The sequencer's event (R121(b)). The unit it comes to is run: with no transaction outstanding, its Emit is issued. A
running page whose configuration START would refuse is a fault (I11, log 12). -/
def sequencerEvent (s : State) : Result :=
  if seqEnabled s = false then .next s
  else if pageConfigOk s = false then .fault .brokenPage
  else
    match seqWork s with
    | .go s' => .next s'
    | .emit i s' => exec i s'
    | .read row ch s' => .next (issueSource row ch s')
    | .done s' => .next s'
    | .stop f => .fault f

/-- The source's response to the outstanding SourceRead, applied in its event (R255, R377). -/
def applyRow (row : BitVec 16) (ch : BitVec 2) (r : RowResponse) (s : State) : Result :=
  match r with
  | .row d =>
    if d.length ≠ s.conf.rowBytes then .fault .rowLength
    else if pageConfigOk s = false then .fault .brokenPage
    else .next (storeRow d { s with port := .idle })
  | .endOfPage =>
    if pageConfigOk s = false then .fault .brokenPage else .next (storeZeroRow { s with port := .idle })
  | .fail => .next (raiseSource row ch s)

/-- The source's event (R121(c)). A response to a transaction that is not outstanding is ignored (R213, I5). -/
def sourceEvent (tag : Nat) (r : RowResponse) (s : State) : Result :=
  match s.port with
  | .source tag' row ch => if tag = tag' then applyRow row ch r s else .next s
  | .idle => .next s
  | .sink _ _ _ _ => .next s

/-- The outstanding Emit with the sink's answer delivered. -/
def answered (tag : Nat) (raw : Bool) (bytes : List Byte) (k : Nat) (s : State) : State :=
  { s with port := .sink tag raw bytes (some k) }

/-- The sink's event (R121(d)): the outstanding unit is fetched, decoded and run with the answer delivered. A response
to a transaction that is not outstanding is ignored (R213, I5). -/
def sinkEvent (tag : Nat) (k : Nat) (s : State) : Result :=
  match s.port with
  | .sink tag' raw bytes _ =>
    if tag = tag' then
      match decodeWire raw bytes with
      | .ok i => exec i (answered tag' raw bytes k s)
      | .error e => .refused (.undecodable e)
    else .next s
  | .idle => .next s
  | .source _ _ _ => .next s

/-- Hard reset (R214, R410): every register and the sequencer at the reset values, the outstanding transaction
abandoned, the buffers and the loop variables unspecified (logs 6, 7). What is not the block's stays: the output stream,
the events to come and the model's counters; the parameters are constants. -/
def hardReset (s : State) : State :=
  { forget (abandon s) with
    busy := false, flags := EventBits.clear, phase := .idle, ie := EventBits.clear, errRegs := ErrRegs.clear,
    conf := ConfRegs.reset, xin0 := 0, xin1 := 0, xout0 := 0, xout1 := 0, prog := Progress.clear, seq := .idle,
    lh := 16, bus := .none }

/-- One event. -/
def applyEvent (e : Event) (s : State) : Result :=
  match e with
  | .host a => hostEvent a s
  | .sequencer => sequencerEvent s
  | .source tag r => sourceEvent tag r s
  | .sink tag k => sinkEvent tag k s
  | .hardReset => .next (hardReset s)

/-- The next event of the list, or, with none there, the sequencer's if it is enabled, else nothing (R121, R412, R424;
log 2). -/
def takeEvent (s : State) : Result :=
  match s.inbox with
  | [] => sequencerEvent s
  | e :: rest => applyEvent e { s with inbox := rest }

/-- A word of the opcode table placed where the next event fetches it (log 3): a CMD word as the host's next bus write,
a wire unit as the outstanding Emit, answered in full by the next event. -/
def placeCode (c : Code) (s : State) : State :=
  match c with
  | .bus a => { s with inbox := .host a :: s.inbox }
  | .wire raw bytes =>
    { s with port := .sink s.txn raw bytes none, txn := s.txn + 1,
             inbox := .sink s.txn bytes.length :: s.inbox }

end Sys2Proof.Machine
end

