-- ==== Sys2Proof/Machine/Step.lean ====
section
/-! DEFINITION. One step of the machine: one atomic event (20_memory.md R121). -/

namespace Sys2Proof.Machine

/-- One step is one event. -/
def step : State → Host.Outcome State Fault Refusal := fun s => takeEvent s

/-- The state with an instruction of the opcode table stored where the next step fetches it (log 3). -/
def State.withFetchWord (s : State) (nbits w : Nat) : State := placeCode (tableCode nbits w) s

end Sys2Proof.Machine
end

