-- ==== Sys2Proof/Safety.lean ====
section
/-! DEFINITION. The terms that statements use: what a consistent state is, when an event keeps the port contracts, and
which part of the state a page's output can depend on. -/

namespace Sys2Proof.Machine

open Sys2Proof.Config

/-- The instruction is a wire unit. -/
def isUnit (i : Instr) : Bool :=
  match encode i with
  | .wire _ _ => true
  | .bus _ => false

/-- The instruction is a RAW unit. -/
def isRaw (i : Instr) : Bool :=
  match encode i with
  | .wire raw _ => raw
  | .bus _ => false

/-- The phase that STATUS.STATE shows while the sequencer rests at a position between its events; none at a position
that it only passes through within an event, and at idle (R41, R343, R350). -/
def Seq.restPhase : Seq → Option Phase
  | .initDir | .initHeight | .initPitch | .bandInit => some .init
  | .asmBegin | .asmNext => some .assemble
  | .segSync | .segData | .segCR | .afterCR | .microLF | .half1Start | .restLF | .bandEnd => some .encode
  | .softCount | .softLF | .ffFF | .resetDir | .resetHeight | .resetPitch | .resetChar | .pageDone => some .finish
  | .idle | .bandTest | .chanBegin | .asmRow | .asmDone | .bandLF | .microHeight | .half1Begin | .restHeight
  | .softHeight | .ffQuirk => none

/-- The positions of a band at which a channel slot is in work: ci is a slot of the page (R81). -/
def Seq.inChannel : Seq → Bool
  | .chanBegin | .asmBegin | .asmRow | .asmNext | .asmDone | .segSync | .segData | .segCR | .afterCR | .microHeight
  | .microLF | .half1Start | .half1Begin => true
  | _ => false

/-- The positions after Assemble's passes have begun: p is a pass of the mode (R81). -/
def Seq.inPass : Seq → Bool
  | .asmRow | .asmNext | .asmDone | .segSync | .segData | .segCR | .afterCR | .microHeight | .microLF | .half1Start
  | .half1Begin => true
  | _ => false

/-- The positions of Assemble: ch is the identifier of slot ci (R81, R253). -/
def Seq.inAssemble : Seq → Bool
  | .asmBegin | .asmRow | .asmNext => true
  | _ => false

/-- The positions of EncodeSegment and its carriage return: h is the half in work, 0 outside HIGH (R81, R280). -/
def Seq.inSegment : Seq → Bool
  | .segSync | .segData | .segCR | .afterCR => true
  | _ => false

/-- The positions that only a band of a HIGH page has: the micro-advance, half 1 and the band's rest (R344 to R346). -/
def Seq.inHigh : Seq → Bool
  | .microHeight | .microLF | .half1Start | .half1Begin | .restHeight | .restLF => true
  | _ => false

/-- The positions of a band: its first row is below H (R340). -/
def Seq.inBand : Seq → Bool
  | .bandLF | .restHeight | .restLF | .bandEnd => true
  | q => q.inChannel

/-- The positions of Init: no band is done (R330). -/
def Seq.inInit : Seq → Bool
  | .initDir | .initHeight | .initPitch | .bandInit => true
  | _ => false

/-- The outstanding transaction is one of the page procedure: a SourceRead of the current sub-row's row, below H, for the
current channel (R252, R253), or an Emit of a well-formed unit (R145). -/
def State.PortOk (s : State) : Prop :=
  match s.port with
  | .idle => True
  | .source _ row ch =>
    s.seq = .asmNext ∧ row.toNat = currentRow s ∧ row.toNat < s.conf.rows ∧ ch = s.conf.chanId s.loop.ci
  | .sink _ raw bytes answer => answer = none ∧ ∃ i, WellFormed i ∧ encode i = .wire raw bytes

/-- The loop variables and the progress counters agree with the sequencer's position in the page (R65, R66, R81, R253,
R340, R341). -/
structure State.LoopOk (s : State) : Prop where
  slot : s.seq.inChannel = true → s.loop.ci.toNat < s.conf.channels
  pass : s.seq.inPass = true → s.loop.p.toNat < s.conf.passes
  chan : s.seq.inAssemble = true → s.loop.ch = s.conf.chanId s.loop.ci
  high : s.seq.inHigh = true → s.conf.cfg.mode = .high
  half : s.seq.inSegment = true → s.conf.cfg.mode ≠ .high → s.loop.h = 0
  band : s.seq.inBand = true → s.loop.lnum.toNat < s.conf.rows
  start : s.seq.inInit = true → s.prog.lnum = 0 ∧ s.prog.bandCnt = 0
  count : s.seq.inInit = false → s.prog.lnum = s.loop.lnum ∧
    s.loop.lnum.toNat = 8 * s.conf.passes * s.prog.bandCnt.toNat ∧
    s.loop.lnum.toNat < s.conf.rows + 8 * s.conf.passes

/-- The consistent states: the buffers are canonical; BUSY, STATE and seq agree (R36, R41); no transaction is
outstanding without a page; DONE and ERR are never both set, nor either while a page runs (R38); a running page's
configuration passes START's checks (R72, R203); the loop variables are in range; the port is as the page left it. -/
structure State.Inv (s : State) : Prop where
  bbufWf : s.bbuf.wf = true
  tbufWf : s.tbuf.wf = true
  pbufWf : s.pbuf.wf = true
  stopped : s.busy = false → s.phase = .idle ∧ s.seq = .idle ∧ s.port = .idle
  running : s.busy = true → s.seq.restPhase = some s.phase ∧ s.flags.done = false ∧ s.flags.err = false
  oneEnd : ¬ (s.flags.done = true ∧ s.flags.err = true)
  config : s.busy = true → startCheck s.params s.conf = none
  loop : s.busy = true → s.LoopOk
  port : s.PortOk

/-- The next event keeps the port contracts: a Row that answers the outstanding SourceRead has W bytes (R110, I7), and
a count that answers the outstanding Emit is at most its length (R115, I8). -/
def State.ContractKept (s : State) : Prop :=
  match s.inbox, s.port with
  | .source tag (.row d) :: _, .source tag' _ _ => tag = tag' → d.length = s.conf.rowBytes
  | .sink tag k :: _, .sink tag' _ bytes _ => tag = tag' → k ≤ bytes.length
  | _, _ => True

/-- The state with everything that a page's output cannot depend on set to one value: the STATUS flags DONE, ERR, CMDERR
and WLOCK, IE, XIN, XOUT and the bus response (R215). Two states with the same page view send the same stream. -/
def State.pageView (s : State) : State :=
  { s with flags := EventBits.clear, ie := EventBits.clear, xin0 := 0, xin1 := 0,
           xout0 := 0, xout1 := 0, bus := .none }

/-- The page view of what a step answers. -/
def resultView : Result → Result
  | .next s => .next s.pageView
  | .fault f => .fault f
  | .refused r => .refused r

end Sys2Proof.Machine
end

