-- ==== Sys2Proof/Certificates/Slice0/Obligations.lean ====
section
/-! DEFINITION. The statements for the provers. Each docstring says which rules of spec/ it formalises. -/

open Sys2Proof Sys2Proof.Machine Sys2Proof.Config

/-! ### Encoding -/

/-- Decoding the code of a well-formed instruction gives the instruction back: every row of the opcode table, every
operand. -/
def Obligations.DecodeOfEncodeIsIdentity : Prop :=
  ∀ i : Instr, WellFormed i → decode (encode i) = .ok i

/-- R159: a reader of the stream finds the end of each generated unit, whatever follows it, by the length its first bytes
give. -/
def Obligations.ReaderFindsTheEndOfEachUnit : Prop :=
  ∀ (i : Instr) (rest : List Byte), WellFormed i → isUnit i = true → isRaw i = false →
    readUnit (wireBytes i ++ rest) = .ok (i, rest) ∧
    (wireBytes i).length =
      match i with
      | .cr | .lf | .ff => 1
      | .escK _ => 3
      | .escT _ => 4
      | .escV _ => 7
      | .escU _ => 9
      | .escG f _ => 6 + columnCount f
      | .escC f _ => 6 + 3 * columnCount f
      | _ => 2

/-- R141, R143, R144: a CMD word decodes as its OP = bits [3:0] alone. -/
def Obligations.CmdWordDecodesByItsOpAlone : Prop :=
  ∀ (w : Word) (op : Nat), op = w.toNat % 16 →
    (op = 0 → decodeCmd w = .nop) ∧ (op = 1 → decodeCmd w = .start) ∧ (op = 2 → decodeCmd w = .xpose) ∧
    (op = 3 → decodeCmd w = .illegal3) ∧
    (4 ≤ op ∧ op ≤ 7 → decodeCmd w = .illegal4to7 (BitVec.ofNat 2 op)) ∧
    (8 ≤ op ∧ op ≤ 11 → decodeCmd w = .illegal8toB (BitVec.ofNat 2 op)) ∧
    (12 ≤ op ∧ op ≤ 13 → decodeCmd w = .illegalCtoD (BitVec.ofNat 1 op)) ∧
    (op = 14 → decodeCmd w = .illegalE) ∧ (op = 15 → decodeCmd w = .sreset)

/-- R153, R154: the decimal fields are the ASCII digits of the number, most significant first, and read back as it. -/
def Obligations.DecimalFieldsAreAsciiDigits : Prop :=
  (∀ n ≤ 9999, (dec4 n).d3.toNat = 0x30 + (n / 1000) % 10 ∧ (dec4 n).d2.toNat = 0x30 + (n / 100) % 10 ∧
    (dec4 n).d1.toNat = 0x30 + (n / 10) % 10 ∧ (dec4 n).d0.toNat = 0x30 + n % 10 ∧ dec4Value (dec4 n) = some n) ∧
  (∀ n ≤ 99, (dec2 n).tens.toNat = 0x30 + n / 10 ∧ (dec2 n).ones.toNat = 0x30 + n % 10 ∧
    dec2Value (dec2 n) = some n) ∧
  dec2 16 = ⟨0x31, 0x36⟩

/-- A few words of the opcode table, as the table numbers them (in the model's reading of it, log 13), decode to their
rows' instructions. -/
def Obligations.TableWordsDecodeToTheirRows : Prop :=
  decodeTableWord 32 0x00000001 = some .start ∧ decodeTableWord 32 0xFFFFFFF0 = some .nop ∧
  decodeTableWord 32 0x0000000D = some (.illegalCtoD 1) ∧ decodeTableWord 16 0x1B3C = some .escBidi ∧
  decodeTableWord 24 0x1B4B33 = some (.escK 3) ∧ decodeTableWord 8 0x0A = some .lf

/-! ### Register accesses -/

/-- R35: what STATUS reads as, what a write of it clears, and that it resets to 0. -/
def Obligations.StatusReadsAndClears : Prop :=
  (∀ s : State, ∃ w : Word, exec (.csrr 0x08) s = .next { s with bus := .read w false } ∧
    w.toNat = 256 * s.phase.code.toNat + 16 * s.flags.wlock.toNat + 8 * s.flags.cmdErr.toNat + 4 * s.flags.err.toNat +
      2 * s.flags.done.toNat + s.busy.toNat) ∧
  (∀ (s : State) (v : Word), exec (.csrw 0x08 v) s = .next
    { s with
      bus := .write false
      flags := { done := s.flags.done && !v.getLsbD 1, err := s.flags.err && !v.getLsbD 2,
                 cmdErr := s.flags.cmdErr && !v.getLsbD 3, wlock := s.flags.wlock && !v.getLsbD 4 } }) ∧
  exec (.csrr 0x08) State.reset = .next { State.reset with bus := .read 0 false }

/-- R200, R105: an aligned read answers the register's value and has no side effect. R33 to R71 give the values, here as
numbers, for every register of the window; a reserved bit or offset reads 0. -/
def Obligations.ReadAnswersTheRegisterAndChangesNothing : Prop :=
  ∀ (s : State) (off : BitVec 8), off.toNat % 4 = 0 → ∃ w : Word,
    exec (.csrr off) s = .next { s with bus := .read w false } ∧
    (off = 0x00 → w = s.params.idValue) ∧ (off = 0x04 → w = 0) ∧
    (off = 0x08 → w.toNat = 256 * s.phase.code.toNat + 16 * s.flags.wlock.toNat + 8 * s.flags.cmdErr.toNat +
      4 * s.flags.err.toNat + 2 * s.flags.done.toNat + s.busy.toNat) ∧
    (off = 0x0C →
      w.toNat = 2 * s.ie.done.toNat + 4 * s.ie.err.toNat + 8 * s.ie.cmdErr.toNat + 16 * s.ie.wlock.toNat) ∧
    (off = 0x10 → w.toNat = s.errRegs.code.code.toNat + 16 * s.errRegs.sub.toNat + 256 * s.errRegs.chan.toNat) ∧
    (off = 0x14 → w.toNat = s.errRegs.row.toNat) ∧ (off = 0x18 → w = s.errRegs.expected) ∧
    (off = 0x1C → w = s.errRegs.actual) ∧
    (off = 0x20 → w.toNat = s.conf.cfg.mode.code.toNat + 16 * s.conf.cfg.nch.toNat + 256 * s.conf.cfg.dir.toNat +
      512 * s.conf.cfg.hcp.toNat + 1024 * s.conf.cfg.rls.toNat + 4096 * s.conf.cfg.ejff.toNat) ∧
    (off = 0x24 → w.toNat = s.conf.width.toNat) ∧ (off = 0x28 → w.toNat = s.conf.height.toNat) ∧
    (off = 0x2C → w.toNat = s.conf.pageLen.toNat) ∧ (off = 0x30 → w.toNat = s.conf.chOrder.toNat) ∧
    (off = 0x34 → w.toNat = s.conf.kDigit.toNat) ∧
    (off = 0x40 → w = s.conf.pitchDat.r0) ∧ (off = 0x44 → w.toNat = s.conf.pitchLen.r0.toNat) ∧
    (off = 0x48 → w = s.conf.pitchDat.r1) ∧ (off = 0x4C → w.toNat = s.conf.pitchLen.r1.toNat) ∧
    (off = 0x50 → w = s.conf.pitchDat.r2) ∧ (off = 0x54 → w.toNat = s.conf.pitchLen.r2.toNat) ∧
    (off = 0x58 → w = s.conf.pitchDat.r3) ∧ (off = 0x5C → w.toNat = s.conf.pitchLen.r3.toNat) ∧
    (off = 0x60 → w.toNat = s.conf.quirkLen.toNat) ∧
    (off = 0x64 → w = s.conf.quirkDat.r0) ∧ (off = 0x68 → w = s.conf.quirkDat.r1) ∧
    (off = 0x6C → w = s.conf.quirkDat.r2) ∧ (off = 0x70 → w = s.conf.quirkDat.r3) ∧
    (off = 0x80 → w = s.xin0) ∧ (off = 0x84 → w = s.xin1) ∧ (off = 0x88 → w = s.xout0) ∧ (off = 0x8C → w = s.xout1) ∧
    (off = 0x90 → w.toNat = s.prog.lnum.toNat) ∧ (off = 0x94 → w = s.prog.bandCnt) ∧
    (off = 0x98 → w = s.prog.byteCnt) ∧ (off = 0x9C → w = s.prog.adv144) ∧
    (off = 0xA0 → w = BitVec.ofNat 32 s.params.wmax) ∧ (off = 0xA4 → w = BitVec.ofNat 32 s.params.pbufCap) ∧
    (off ∈ ([0x38, 0x3C, 0x74, 0x78, 0x7C] : List (BitVec 8)) ∨ 0xA8 ≤ off.toNat → w = 0)

/-- R104: a misaligned access gets the error response; the read returns 0, and nothing changes. -/
def Obligations.MisalignedAccessGetsBusError : Prop :=
  ∀ (s : State) (off : BitVec 8) (v : Word), off.toNat % 4 ≠ 0 →
    exec (.csrr off) s = .next { s with bus := .read 0 true } ∧
    exec (.csrw off v) s = .next { s with bus := .write true }

/-- R32, R201: a write of an RW register, or with BUSY = 0 of an RW-L register, stores its defined bits, the next read
returns them, every other register reads as before, and nothing but configuration, IE and XIN can have changed. -/
def Obligations.WriteThenReadGivesTheDefinedBits : Prop :=
  ∀ (s : State) (v : Word) (off : BitVec 8) (mask : Word),
    (s.busy = false ∨ off ∈ ([0x0C, 0x80, 0x84] : List (BitVec 8))) →
    (off, mask) ∈ ([(0x0C, 0x1E), (0x20, 0xF773), (0x24, 0xFFFF), (0x28, 0xFFFF), (0x2C, 0xFFFF), (0x30, 0xFF),
      (0x34, 0xFF), (0x40, 0xFFFFFFFF), (0x44, 0x7), (0x48, 0xFFFFFFFF), (0x4C, 0x7), (0x50, 0xFFFFFFFF), (0x54, 0x7),
      (0x58, 0xFFFFFFFF), (0x5C, 0x7), (0x60, 0x1F), (0x64, 0xFFFFFFFF), (0x68, 0xFFFFFFFF), (0x6C, 0xFFFFFFFF),
      (0x70, 0xFFFFFFFF), (0x80, 0xFFFFFFFF), (0x84, 0xFFFFFFFF)] : List (BitVec 8 × Word)) →
    ∃ t, exec (.csrw off v) s = .next t ∧
      exec (.csrr off) t = .next { t with bus := .read (v &&& mask) false } ∧
      (∀ off' : BitVec 8, off' ≠ off → readReg t (Reg.at off') = readReg s (Reg.at off')) ∧
      { t with conf := s.conf, ie := s.ie, xin0 := s.xin0, xin1 := s.xin1, bus := s.bus } = s ∧ t.bus = .write false

/-- R72: while BUSY = 1, a write to an RW-L register is ignored and sets WLOCK; while BUSY = 0 it takes effect at once
and sets nothing. -/
def Obligations.LockedWriteSetsWlock : Prop :=
  ∀ (s : State) (v : Word) (off : BitVec 8),
    off ∈ ([0x20, 0x24, 0x28, 0x2C, 0x30, 0x34, 0x40, 0x44, 0x48, 0x4C, 0x50, 0x54, 0x58, 0x5C, 0x60, 0x64, 0x68, 0x6C,
      0x70] : List (BitVec 8)) →
    (s.busy = true → exec (.csrw off v) s = .next { s with flags := { s.flags with wlock := true }, bus := .write false }) ∧
    (s.busy = false → exec (.csrw off v) s =
      .next { s with conf := writeConf (Reg.at off) v s.conf, bus := .write false })

/-- R71: a reserved offset reads 0, and a write there changes nothing. R32 (RO), R201: a write to a read-only register is
ignored too, without any flag. -/
def Obligations.ReservedAndReadOnlyIgnoreWrites : Prop :=
  ∀ (s : State) (v : Word) (off : BitVec 8),
    (off.toNat % 4 = 0 → off ∈ ([0x38, 0x3C, 0x74, 0x78, 0x7C] : List (BitVec 8)) ∨ 0xA8 ≤ off.toNat →
      exec (.csrr off) s = .next { s with bus := .read 0 false } ∧
      exec (.csrw off v) s = .next { s with bus := .write false }) ∧
    (off ∈ ([0x00, 0x10, 0x14, 0x18, 0x1C, 0x88, 0x8C, 0x90, 0x94, 0x98, 0x9C, 0xA0, 0xA4] : List (BitVec 8)) →
      exec (.csrw off v) s = .next { s with bus := .write false })

/-- R201 (WO), R202: a csrw at 0x04 is the command that the CMD rows decode from its word. -/
def Obligations.CmdWriteRunsTheDecodedCommand : Prop :=
  ∀ (s : State) (v : Word), exec (.csrw 0x04 v) s = exec (decodeCmd v) s

/-- R390: the interrupt line is the OR over the four events of STATUS bit and IE bit, seen through the two registers. -/
def Obligations.IrqIsStatusAndEnable : Prop :=
  (∀ s : State, s.irq = true ↔ readReg s .status &&& readReg s .ie ≠ 0#32) ∧ State.reset.irq = false

/-! ### Commands -/

/-- R205: NOP, that is a CMD word of OP 0 whatever its other bits, changes nothing, whatever BUSY is (the bus write that
carries it is acknowledged). -/
def Obligations.NopChangesNothing : Prop :=
  ∀ s : State, exec .nop s = .next { s with bus := .write false } ∧
    ∀ w : Word, w.toNat % 16 = 0 → decodeCmd w = .nop ∧ exec (.csrw 0x04 w) s = .next { s with bus := .write false }

/-- R142: a CMD word of OP 0x3 to 0xE sets CMDERR and has no other effect, whatever BUSY is, and so does each illegal
row's instruction; every other word is one of the four commands. -/
def Obligations.IllegalOpsSetCmdErrOnly : Prop :=
  (∀ (s : State) (i : Instr) (lo : BitVec 2) (b : BitVec 1),
    i ∈ [.illegal3, .illegal4to7 lo, .illegal8toB lo, .illegalCtoD b, .illegalE] →
    exec i s = .next { s with flags := { s.flags with cmdErr := true }, bus := .write false }) ∧
  ∀ w : Word,
    (3 ≤ w.toNat % 16 ∧ w.toNat % 16 ≤ 14 → ∀ s : State,
      exec (.csrw 0x04 w) s = .next { s with flags := { s.flags with cmdErr := true }, bus := .write false }) ∧
    (¬ (3 ≤ w.toNat % 16 ∧ w.toNat % 16 ≤ 14) → decodeCmd w ∈ [Instr.nop, .start, .xpose, .sreset])

/-- R203, R204: with BUSY = 0, START clears DONE, ERR, the error registers and the counters, makes its checks in order,
and either records the first that fails or begins a page. -/
def Obligations.StartChecksThenBeginsAPage : Prop :=
  ∀ (s : State) (n w p h m pl : Nat), s.busy = false → n = s.conf.cfg.nch.toNat → w = s.conf.width.toNat →
    p = (match s.conf.cfg.mode with | .low => 1 | .med => 1 | .high => 2 | .lq => 3) →
    m = (match s.conf.cfg.mode with | .low => 0 | .med => 1 | .high => 2 | .lq => 3) →
    pl = (match s.conf.cfg.mode with
      | .low => s.conf.pitchLen.r0 | .med => s.conf.pitchLen.r1 | .high => s.conf.pitchLen.r2
      | .lq => s.conf.pitchLen.r3).toNat →
    h = n * 8 * p * w →
    let failed := fun (code : ErrCode) (sub : BitVec 4) (e a : Nat) =>
      { s with flags := { s.flags with done := false, err := true }, prog := ⟨0, 0, 0, 0⟩, bus := .write false,
               errRegs := ⟨code, sub, 0, 0, BitVec.ofNat 32 e, BitVec.ofNat 32 a⟩ }
    exec .start s = .next (
      if n ≠ 1 ∧ n ≠ 4 then failed .config 1 n 0
      else if w = 0 ∨ 1249 < w then failed .config 2 w 0
      else if n = 4 ∧ ¬ [s.conf.chOrder.extractLsb' 0 2, s.conf.chOrder.extractLsb' 2 2, s.conf.chOrder.extractLsb' 4 2,
          s.conf.chOrder.extractLsb' 6 2].Perm [0#2, 1#2, 2#2, 3#2] then failed .config 3 s.conf.chOrder.toNat 0
      else if 4 < pl then failed .config 4 pl 0
      else if s.conf.cfg.ejff.getLsbD m = true ∧ 16 < s.conf.quirkLen.toNat then failed .config 5 s.conf.quirkLen.toNat 0
      else if s.params.wmax < w then failed .alloc 1 (8 * w) (8 * s.params.wmax)
      else if s.params.pbufCap < h then failed .alloc 2 h s.params.pbufCap
      else { s with flags := { s.flags with done := false, err := false }, errRegs := ⟨.none, 0, 0, 0, 0, 0⟩,
                    prog := ⟨0, 0, 0, 0⟩, busy := true, phase := .init, seq := .initDir, bus := .write false })

/-- R202, R422: START and XPOSE while BUSY = 1 set CMDERR and nothing else. -/
def Obligations.StartAndXposeRefusedWhileBusy : Prop :=
  ∀ (s : State) (i : Instr), s.busy = true → (i = .start ∨ i = .xpose) →
    exec i s = .next { s with flags := { s.flags with cmdErr := true }, bus := .write false }

/-- R210: with BUSY = 0, XPOSE writes to XOUT the transpose of XIN, and changes nothing else; bit b of output byte k is
bit k of input byte b, bytes packed little-endian. -/
def Obligations.XposeTransposesXinIntoXout : Prop :=
  ∀ s : State, s.busy = false → ∃ t, exec .xpose s = .next t ∧
    (∀ k < 8, ∀ b < 8, (t.xout1 ++ t.xout0).getLsbD (8 * k + b) = (s.xin1 ++ s.xin0).getLsbD (8 * b + k)) ∧
    { t with xout0 := s.xout0, xout1 := s.xout1, bus := s.bus } = s ∧ t.bus = .write false

/-- R212, R213, R411: SRESET gives everything its reset value but the configuration, IE and XIN, whatever BUSY is; the
buffers and the loop variables are unspecified (logs 6, 7); the sink has taken some prefix of an abandoned Emit and
nothing else, in this event by the model's choice (log 5). -/
def Obligations.SresetKeepsConfigurationOnly : Prop :=
  ∀ s : State, ∃ (taken : List Byte) (d : Nat) (b1 b2 b3 : Memory) (lv : LoopVars),
    exec .sreset s = .next
      { State.resetWith s.params with
        conf := s.conf, ie := s.ie, xin0 := s.xin0, xin1 := s.xin1, out := s.out ++ taken, bus := .write false,
        bbuf := b1, tbuf := b2, pbuf := b3, loop := lv, inbox := s.inbox, txn := s.txn, draws := d } ∧
    (taken = [] ∨ ∃ tag raw bytes answer n, s.port = .sink tag raw bytes answer ∧ n ≤ bytes.length ∧
      taken = bytes.take n)

/-- R215: while a page runs, every host access but SRESET completes, and leaves everything the page's output depends on
as it is. -/
def Obligations.HostAccessKeepsThePage : Prop :=
  ∀ (s : State) (a : BusAccess), s.busy = true → decodeBus a ≠ .sreset →
    ∃ t, exec (decodeBus a) s = .next t ∧ t.pageView = s.pageView

/-- R215: what an event of the sequencer, of a port or of the reset input does to the page depends on the page view
alone, so the STATUS flags, IE, XIN, XOUT and the bus response never reach the output. -/
def Obligations.PageOutputIgnoresHostRegisters : Prop :=
  ∀ (s t : State) (e : Event), s.pageView = t.pageView → (∀ a, e ≠ .host a) →
    resultView (applyEvent e s) = resultView (applyEvent e t)

/-! ### Wire units -/

/-- R145 to R157: the bytes of each generated unit. -/
def Obligations.WireUnitsHaveTheirFormats : Prop :=
  wireBytes .escBidi = [0x1B, 0x3C] ∧ wireBytes .escUni = [0x1B, 0x3E] ∧ wireBytes .escA = [0x1B, 0x41] ∧
  wireBytes .escB = [0x1B, 0x42] ∧ wireBytes .escE = [0x1B, 0x45] ∧ wireBytes .cr = [0x0D] ∧ wireBytes .lf = [0x0A] ∧
  wireBytes .ff = [0x0C] ∧
  (∀ d : BitVec 2, wireBytes (.escK d) = [0x1B, 0x4B, BitVec.ofNat 8 (0x30 + d.toNat)]) ∧
  (∀ f : Dec2, wireBytes (.escT f) = [0x1B, 0x54, f.tens, f.ones]) ∧
  (∀ f : Dec4, wireBytes (.escV f) = [0x1B, 0x56, f.d3, f.d2, f.d1, f.d0, 0x00] ∧
    wireBytes (.escU f) = [0x1B, 0x55, f.d3, f.d2, f.d1, f.d0, 0x00, 0x00, 0x00]) ∧
  (∀ (f : Dec4) (bs : List Byte), wireBytes (.escG f bs) = [0x1B, 0x47, f.d3, f.d2, f.d1, f.d0] ++ bs ∧
    wireBytes (.escC f bs) = [0x1B, 0x43, f.d3, f.d2, f.d1, f.d0] ++ bs)

/-- R320: with no transaction outstanding, a wire unit (each of the fifteen) issues its request and changes nothing
else. -/
def Obligations.UnitIssuesItsRequest : Prop :=
  ∀ (s : State) (i : Instr), isUnit i = true → s.port = .idle →
    exec i s = .next { s with port := .sink s.txn (isRaw i) (wireBytes i) none, txn := s.txn + 1 }

/-- R320: a wire unit that the sink accepts in full, other than `ESC 'T'` and LF (so ESC, ESC_2, ESC__A, ESC__B, ESC__E,
ESC__K__d, ESC__G__nnnn, ESC__V__nnnn, ESC__C__nnnn, ESC__U__nnnn, CR, FF and RAW), appends its bytes to the stream, adds
their number to BYTECNT, and changes nothing else. -/
def Obligations.AcceptedUnitIsCountedAndSent : Prop :=
  ∀ (s : State) (i : Instr) (tag : Nat), isUnit i = true → i ≠ .lf → (∀ f, i ≠ .escT f) →
    s.port = .sink tag (isRaw i) (wireBytes i) (some (wireBytes i).length) →
    exec i s = .next
      { s with port := .idle, out := s.out ++ wireBytes i,
               prog := { s.prog with byteCnt := s.prog.byteCnt + BitVec.ofNat 32 (wireBytes i).length } }

/-- R82, R320: a fully accepted `ESC 'T'` (ESC__T__nn) is sent and counted, and sets LH to the number n that its digits
write, every dec2(n); digits that write no number, which the encoder never sends (R160), set nothing (the model's choice,
log 9). -/
def Obligations.AcceptedLineHeightSetsLh : Prop :=
  (∀ (s : State) (f : Dec2) (tag : Nat), s.port = .sink tag false [0x1B, 0x54, f.tens, f.ones] (some 4) →
    exec (.escT f) s = .next
      { s with port := .idle, out := s.out ++ [0x1B, 0x54, f.tens, f.ones]
               lh := match dec2Value f with | some n => BitVec.ofNat 7 n | none => s.lh
               prog := { s.prog with byteCnt := s.prog.byteCnt + 4 } }) ∧
  ∀ n ≤ 99, dec2Value (dec2 n) = some n ∧ (BitVec.ofNat 7 n).toNat = n

/-- R68, R82, R320: a fully accepted LF is sent and counted, and adds LH to ADV144 modulo 2^32. -/
def Obligations.AcceptedLineFeedAddsLh : Prop :=
  ∀ (s : State) (tag : Nat), s.port = .sink tag false [0x0A] (some 1) →
    ∃ t, exec .lf s = .next t ∧ t.prog.adv144.toNat = (s.prog.adv144.toNat + s.lh.toNat) % 2 ^ 32 ∧
      t.prog.byteCnt = s.prog.byteCnt + 1 ∧ t.prog.lnum = s.prog.lnum ∧ t.prog.bandCnt = s.prog.bandCnt ∧
      t.out = s.out ++ [0x0A] ∧ t.port = .idle ∧
      { t with prog := s.prog, out := s.out, port := s.port } = s

/-- R320, R378, R380, R362: a wire unit (each of the fifteen) that the sink accepts only in part raises WRITE with the
unit's length and the count; the count's bytes are sent and counted; LH, ADV144, the configuration and the rest stay. -/
def Obligations.ShortWriteEndsThePage : Prop :=
  ∀ (s : State) (i : Instr) (tag k : Nat), isUnit i = true → k < (wireBytes i).length →
    s.port = .sink tag (isRaw i) (wireBytes i) (some k) →
    exec i s = .next
      { s with
        port := .idle, out := s.out ++ (wireBytes i).take k, busy := false, phase := .idle, seq := .idle
        prog := { s.prog with byteCnt := s.prog.byteCnt + BitVec.ofNat 32 k }
        flags := { s.flags with err := true }
        errRegs := ⟨.write, 0, 0, 0, BitVec.ofNat 32 (wireBytes i).length, BitVec.ofNat 32 k⟩ }

/-! ### Transposer and buffers -/

/-- R230: bit b of output byte k is bit k of input byte b. -/
def Obligations.TransposeMovesEachBit : Prop :=
  ∀ (x : Block) (k b : Fin 8), (transpose8 x k).getLsbD b = (x b).getLsbD k

/-- R234: the transpose is an involution. -/
def Obligations.TransposeTwiceIsIdentity : Prop :=
  ∀ x : Block, transpose8 (transpose8 x) = x

/-- R236: the reversed use A, applied twice, rotates the block by 180 degrees, and is not an involution. -/
def Obligations.ReversedTransposeTwiceRotates : Prop :=
  let A := fun x : Block => transpose8 fun b => x (7 - b)
  (∀ (x : Block) (k b : Fin 8), (A x k).getLsbD b = (x (7 - b)).getLsbD k ∧
    (A (A x) k).getLsbD b = (x (7 - k)).getLsbD (7 - b)) ∧
  (∀ x : Block, A (A x) = x ↔ ∀ k b : Fin 8, (x k).getLsbD b = (x (7 - k)).getLsbD (7 - b)) ∧
  A (A fun b => if b = 0 then 0x01 else 0) = fun b => if b = 7 then 0x80 else 0

/-- R237: the corner cases of the transpose, the number of set bits among them. -/
def Obligations.TransposeCornerCases : Prop :=
  (transpose8 fun _ => 0x00) = (fun _ => 0x00) ∧ (transpose8 fun _ => 0xFF) = (fun _ => 0xFF) ∧
  (transpose8 fun b => BitVec.ofNat 8 (2 ^ b.val)) = (fun b => BitVec.ofNat 8 (2 ^ b.val)) ∧
  (transpose8 fun _ => 0x0F) = (fun k => if k.val < 4 then 0xFF else 0x00) ∧
  (transpose8 fun b => if b = 0 then 0xFF else 0x00) = (fun _ => 0x01) ∧
  (∀ b k : Fin 8, (transpose8 fun b' => if b' = b then BitVec.ofNat 8 (2 ^ k.val) else 0) =
    fun k' => if k' = k then BitVec.ofNat 8 (2 ^ b.val) else 0) ∧
  (∀ x : Block, ∑ k : Fin 8, ∑ b : Fin 8, ((transpose8 x k).getLsbD b).toNat =
    ∑ k : Fin 8, ∑ b : Fin 8, ((x k).getLsbD b).toNat)

/-- R251: the row offset of sub-row s of pass p in each mode, the passes of each mode, and over one band the offsets take
every value below 8P exactly once. -/
def Obligations.RowOffsetsCoverTheBandOnce : Prop :=
  (∀ s p, rowOffset .low s p = s ∧ rowOffset .med s p = s ∧ rowOffset .high s p = 2 * s + p ∧
    rowOffset .lq s p = s + 8 * p) ∧
  (Mode.low.passes = 1 ∧ Mode.med.passes = 1 ∧ Mode.high.passes = 2 ∧ Mode.lq.passes = 3) ∧
  ∀ (m : Mode) (x : Nat),
    (x < 8 * m.passes → ∃ s p, s < 8 ∧ p < m.passes ∧ rowOffset m s p = x) ∧
    (∀ s p s' p', s < 8 → p < m.passes → s' < 8 → p' < m.passes → rowOffset m s p = rowOffset m s' p' →
      s = s' ∧ p = p') ∧
    (∀ s p, s < 8 → p < m.passes → rowOffset m s p < 8 * m.passes)

/-- R254, R255: a Row response of W bytes stores byte j at BBUF[7 - s][j], an EndOfPage stores W zero bytes there; no
other byte of a buffer changes, and nothing else does but that the transaction is over. -/
def Obligations.RowIsStoredInTheReversedSlot : Prop :=
  ∀ (s : State) (tag : Nat) (row : BitVec 16) (ch : BitVec 2) (r : RowResponse) (rest : List Event) (d : List Byte),
    s.port = .source tag row ch → s.inbox = .source tag r :: rest → s.bbuf.wf = true →
    startCheck s.params s.conf = none →
    (r = .row d ∨ (r = .endOfPage ∧ d = List.replicate s.conf.width.toNat 0)) → d.length = s.conf.width.toNat →
    ∃ t, step s = .next t ∧
      (∀ j, ∀ h : j < d.length, t.bbuf.read (bbufIndex s.params.wmax (7 - s.loop.s.toNat) j) = d[j]) ∧
      (∀ a, (∀ j < d.length, a ≠ bbufIndex s.params.wmax (7 - s.loop.s.toNat) j) → t.bbuf.read a = s.bbuf.read a) ∧
      t.port = .idle ∧ t.inbox = rest ∧ { t with bbuf := s.bbuf, port := s.port, inbox := s.inbox } = s

/-- R111: a Fail response raises SOURCE with the row and channel of the request (R377), and ends the page (R380). -/
def Obligations.SourceFailRaisesSource : Prop :=
  ∀ (s : State) (tag : Nat) (row : BitVec 16) (ch : BitVec 2) (rest : List Event),
    s.port = .source tag row ch → s.inbox = .source tag .fail :: rest →
    step s = .next
      { s with inbox := rest, port := .idle, busy := false, phase := .idle, seq := .idle,
               flags := { s.flags with err := true }, errRegs := ⟨.source, 0, ch, row, 0, 0⟩ }

/-- R232, R256, R259 to R261: after the transpose and the scatter of pass p, printed column i of the pass stands at its
place of the channel's region, bit b of it being bit i mod 8 of byte i div 8 of BBUF row b; no other byte of PBUF
changes. -/
def Obligations.PassIsTransposedAndScattered : Prop :=
  ∀ (s : State) (base : Nat) (place : Nat → Nat), s.tbuf.wf = true → s.pbuf.wf = true →
    base = s.loop.ci.toNat * (8 * s.conf.cfg.mode.passes * s.conf.width.toNat) →
    (∀ i, place i = match s.conf.cfg.mode with
      | .low => base + i
      | .med => base + i
      | .high => base + s.loop.p.toNat * (8 * s.conf.width.toNat) + i
      | .lq => base + 3 * i + s.loop.p.toNat) →
    (∀ i < 8 * s.conf.width.toNat, ∀ b < 8, ((transposeAndScatter s).pbuf.read (place i)).getLsbD b =
      (s.bbuf.read (bbufIndex s.params.wmax b (i / 8))).getLsbD (i % 8)) ∧
    (∀ a, (∀ i < 8 * s.conf.width.toNat, a ≠ place i) → (transposeAndScatter s).pbuf.read a = s.pbuf.read a) ∧
    { transposeAndScatter s with tbuf := s.tbuf, pbuf := s.pbuf } = s

/-- R257, R263: the passes of an Assemble write bytes of their region only, and between them every byte of it, each
once. -/
def Obligations.PassesWriteTheWholeRegion : Prop :=
  ∀ (m : Mode) (w base : Nat),
    (∀ p i, p < m.passes → i < 8 * w → base ≤ scatterPlace m w base p i ∧
      scatterPlace m w base p i < base + 8 * m.passes * w) ∧
    (∀ a, base ≤ a → a < base + 8 * m.passes * w → ∃ p i, p < m.passes ∧ i < 8 * w ∧ scatterPlace m w base p i = a) ∧
    (∀ p i p' i', p < m.passes → i < 8 * w → p' < m.passes → i' < 8 * w →
      scatterPlace m w base p i = scatterPlace m w base p' i' → p = p' ∧ i = i')

/-! ### Trimmer -/

/-- R282, R283: the bounds of a segment are its first non-zero group and one past its last; there are none exactly when
every group is zero, a group being zero when all its S bytes are. -/
def Obligations.TrimFindsFirstAndLastGroups : Prop :=
  ∀ (pbuf : Memory) (sb stride ncols : Nat) (zero : Nat → Prop),
    (∀ g, zero g ↔ ∀ k < stride, pbuf.read (sb + stride * g + k) = 0) →
    (trimBounds pbuf sb stride ncols = none ↔ ∀ g < ncols, zero g) ∧
    (∀ blk fin, trimBounds pbuf sb stride ncols = some (blk, fin) ↔
      blk < fin ∧ fin ≤ ncols ∧ ¬ zero blk ∧ ¬ zero (fin - 1) ∧ (∀ g < blk, zero g) ∧ (∀ g < ncols, fin ≤ g → zero g))

/-- R284, R285, R286: at the start of a segment the sequencer sends nothing for an empty segment, a position-sync of blk
columns when blk > 7, and goes to the data unit otherwise. -/
def Obligations.SyncIsSentAboveSevenColumns : Prop :=
  ∀ (s : State) (blk fin : Nat), s.seq = .segSync → loopInRange s = true →
    (currentBounds s = none → seqAction s = .go { s with seq := .segCR }) ∧
    (currentBounds s = some (blk, fin) → blk ≤ 7 → seqAction s = .go { s with seq := .segData }) ∧
    (currentBounds s = some (blk, fin) → 8 ≤ blk →
      seqAction s = .emit (if s.conf.cfg.mode = .lq then .escU (dec4 blk) else .escV (dec4 blk)) { s with seq := .segData })

/-- R284, R287, R288: the data unit carries n = end - start columns, start being blk after a position-sync and 0
otherwise, as the segment's bytes stand in PBUF. -/
def Obligations.DataUnitCarriesTheColumns : Prop :=
  ∀ (s : State) (blk fin start sb stride : Nat), s.seq = .segData → loopInRange s = true →
    currentBounds s = some (blk, fin) → start = (if 8 ≤ blk then blk else 0) →
    stride = (if s.conf.cfg.mode = .lq then 3 else 1) →
    sb = s.loop.ci.toNat * (8 * s.conf.cfg.mode.passes * s.conf.width.toNat) +
      s.loop.h.toNat * (8 * s.conf.width.toNat) →
    ∃ payload : List Byte, payload.length = stride * (fin - start) ∧
      (∀ k < stride * (fin - start), payload[k]? = some (s.pbuf.read (sb + stride * start + k))) ∧
      seqAction s = .emit
        (if s.conf.cfg.mode = .lq then .escC (dec4 (fin - start)) payload else .escG (dec4 (fin - start)) payload)
        { s with seq := .segCR }

/-- R289, R290: trimming loses nothing: a byte of the segment is the payload's byte at its place between `start` and the
end, and zero outside. -/
def Obligations.TrimmedSegmentRebuildsTheBand : Prop :=
  ∀ (s : State) (blk fin g k : Nat), currentBounds s = some (blk, fin) → g < s.conf.columns → k < s.conf.stride →
    s.pbuf.read (segmentBase s + s.conf.stride * g + k) =
      if dataStart blk ≤ g ∧ g < fin then
        (segmentPayload s (dataStart blk) fin).getD (s.conf.stride * (g - dataStart blk) + k) 0
      else 0

/-! ### Sequencer -/

/-- R121(b), R431: the internal work of one sequencer event always comes to a port transaction, the page's end or a
stop. -/
def Obligations.SequencerWorkIsBounded : Prop :=
  ∀ s t : State, seqWork s ≠ .go t

/-- R145, R160: every unit that a running page issues is a well-formed unit. -/
def Obligations.IssuedUnitsAreWellFormed : Prop :=
  ∀ (s t : State) (i : Instr), s.Inv → s.busy = true → seqWork s = .emit i t → WellFormed i ∧ isUnit i = true

/-- R331 to R334: Init sends the directionality, then `ESC 'T' 16`, then the active mode's pitch bytes if there are any,
with STATE = INIT kept. -/
def Obligations.InitSendsDirectionHeightPitch : Prop :=
  ∀ s : State,
    (s.seq = .initDir → seqWork s = .emit (if s.conf.cfg.dir then .escUni else .escBidi) { s with seq := .initHeight }) ∧
    (s.seq = .initHeight → seqWork s = .emit (.escT ⟨0x31, 0x36⟩) { s with seq := .initPitch }) ∧
    (s.seq = .initPitch → 0 < s.conf.activePitchLen → ∃ bytes : List Byte,
      seqWork s = .emit (.raw bytes) { s with seq := .bandInit } ∧ bytes.length = s.conf.activePitchLen ∧
      ∀ t < s.conf.activePitchLen, bytes[t]? =
        some ((s.conf.pitchDat.get s.conf.cfg.mode.code).extractLsb' (8 * t) 8))

/-- R342, R344 to R347: the unit after a segment's carriage return, by mode and policy: the next slot's ribbon select in a
page of four channels, the micro-advance, the band's rest, or the line feed. -/
def Obligations.CadenceAfterCarriageReturn : Prop :=
  ∀ s : State, s.seq = .afterCR →
    (s.conf.cfg.mode ≠ .high → ¬ s.loop.ci.toNat + 1 < s.conf.cfg.nch.toNat →
      seqWork s = .emit .lf { s with seq := .bandEnd }) ∧
    (s.conf.cfg.mode = .high → s.loop.h = 0 →
      (s.conf.cfg.nch = 4 ∧ s.conf.cfg.hcp = true ∨ ¬ s.loop.ci.toNat + 1 < s.conf.cfg.nch.toNat) →
      seqWork s = .emit (.escT ⟨0x30, 0x31⟩) { s with seq := .microLF }) ∧
    (s.conf.cfg.mode = .high → s.loop.h ≠ 0 → ¬ s.loop.ci.toNat + 1 < s.conf.cfg.nch.toNat →
      seqWork s = .emit (.escT ⟨0x31, 0x35⟩) { s with seq := .restLF }) ∧
    (s.conf.cfg.nch = 4 → s.loop.ci.toNat + 1 < 4 → ¬ (s.conf.cfg.mode = .high ∧ s.loop.h = 0 ∧ s.conf.cfg.hcp = true) →
      ∃ t, seqWork s = .emit (.escK (s.conf.kDigit.extractLsb'
        (2 * (s.conf.chOrder.extractLsb' (2 * (s.loop.ci.toNat + 1)) 2).toNat) 2)) t)

/-- R341: when a band's last unit is accepted, the next sequencer event advances lnum by 8P, sets LNUM to it and adds 1 to
BANDCNT, before anything else. -/
def Obligations.BandEndAdvancesTheCounters : Prop :=
  ∀ s : State, s.seq = .bandEnd → ∃ t, seqAction s = .go t ∧
    t.loop.lnum = s.loop.lnum + BitVec.ofNat 17 (8 * s.conf.cfg.mode.passes) ∧ t.prog.lnum = t.loop.lnum ∧
    t.prog.bandCnt = s.prog.bandCnt + 1 ∧ t.seq = .bandTest ∧
    { t with loop := { t.loop with lnum := s.loop.lnum },
             prog := { t.prog with lnum := s.prog.lnum, bandCnt := s.prog.bandCnt }, seq := s.seq } = s

/-- R352: the soft eject sends `ESC 'T' 16`, then the least number of 16/144 inch line feeds that covers what is left of
PAGELEN, at most 4096, counted at `softCount` and sent one by one at `softLF`, and none when ADV144 has reached it; then
the reset sequence begins. That 4096 line feeds can be counted is the model's nlf of 13 bits, against R81's 12 (log 8). -/
def Obligations.SoftEjectCoversTheRestOfThePage : Prop :=
  ∀ s : State,
    (s.seq = .softHeight → seqWork s = .emit (.escT ⟨0x31, 0x36⟩) { s with seq := .softCount }) ∧
    (s.seq = .softCount → s.conf.pageLen.toNat ≤ s.prog.adv144.toNat →
      seqWork s = .emit .escBidi { s with seq := .resetHeight, loop := { s.loop with nlf := 0 } }) ∧
    (s.seq = .softCount → s.prog.adv144.toNat < s.conf.pageLen.toNat → ∃ left : BitVec 13,
      seqWork s = .emit .lf { s with seq := .softLF, loop := { s.loop with nlf := left } } ∧
      left.toNat + 1 ≤ 4096 ∧ 16 * left.toNat < s.conf.pageLen.toNat - s.prog.adv144.toNat ∧
      s.conf.pageLen.toNat - s.prog.adv144.toNat ≤ 16 * (left.toNat + 1)) ∧
    (s.seq = .softLF → s.loop.nlf ≠ 0 → ∃ left : BitVec 13, left.toNat + 1 = s.loop.nlf.toNat ∧
      seqWork s = .emit .lf { s with loop := { s.loop with nlf := left } }) ∧
    (s.seq = .softLF → s.loop.nlf = 0 → seqWork s = .emit .escBidi { s with seq := .resetHeight })

/-- R353, R356: the formfeed eject sends the back-up bytes, if there are any, and then FF; the reset sequence is four units
in order. -/
def Obligations.FormfeedEjectAndResetSequence : Prop :=
  ∀ s : State,
    (s.seq = .ffQuirk → 0 < s.conf.quirkLen.toNat → ∃ bytes : List Byte,
      seqWork s = .emit (.raw bytes) { s with seq := .ffFF } ∧ bytes.length = s.conf.quirkLen.toNat ∧
      ∀ t < s.conf.quirkLen.toNat, bytes[t]? =
        some ((s.conf.quirkDat.get (BitVec.ofNat 2 (t / 4))).extractLsb' (8 * (t % 4)) 8)) ∧
    (s.seq = .ffQuirk → s.conf.quirkLen = 0 → seqWork s = .emit .ff { s with seq := .resetDir }) ∧
    (s.seq = .ffFF → seqWork s = .emit .ff { s with seq := .resetDir }) ∧
    (s.seq = .resetDir → seqWork s = .emit .escBidi { s with seq := .resetHeight }) ∧
    (s.seq = .resetHeight → seqWork s = .emit (.escT ⟨0x31, 0x36⟩) { s with seq := .resetPitch }) ∧
    (s.seq = .resetPitch → seqWork s = .emit (if s.conf.cfg.rls then .escA else .escB) { s with seq := .resetChar }) ∧
    (s.seq = .resetChar → seqWork s = .emit .escE { s with seq := .pageDone })

/-- R361: the sequencer's event after the reset sequence sets DONE, clears BUSY and makes STATE and seq IDLE; the counters
keep their values. -/
def Obligations.PageDoneSetsDone : Prop :=
  ∀ (s : State) (rest : List Event), s.busy = true → s.port = .idle → s.seq = .pageDone →
    startCheck s.params s.conf = none → s.inbox = .sequencer :: rest →
    step s = .next { s with inbox := rest, flags := { s.flags with done := true }, busy := false, phase := .idle,
                            seq := .idle }

/-! ### The machine -/

/-- R121(a), with the events in the model's list (log 2): a step whose next event is a host access runs the
instruction that its code decodes to, with the event taken. -/
def Obligations.StepRunsTheHostAccess : Prop :=
  ∀ (s : State) (a : BusAccess) (rest : List Event) (i : Instr), s.inbox = .host a :: rest →
    decode (.bus a) = .ok i → step s = exec i { s with inbox := rest }

/-- R121(d), with the events in the model's list (log 2): a step whose next event answers the outstanding Emit runs
the unit that the outstanding bytes decode to, with the answer delivered and the event taken. -/
def Obligations.StepRunsTheAnsweredUnit : Prop :=
  ∀ (s : State) (tag k : Nat) (raw : Bool) (bytes : List Byte) (rest : List Event) (i : Instr),
    s.port = .sink tag raw bytes none → s.inbox = .sink tag k :: rest → decode (.wire raw bytes) = .ok i →
    step s = exec i { s with inbox := rest, port := .sink tag raw bytes (some k) }

/-- R121(b), with the events in the model's list (log 2): a step whose next event is the enabled sequencer's runs the
unit that its work comes to, or issues the SourceRead that it comes to. -/
def Obligations.StepRunsTheSequencersUnit : Prop :=
  ∀ (s t : State) (rest : List Event) (i : Instr) (row : BitVec 16) (ch : BitVec 2),
    s.inbox = .sequencer :: rest → s.busy = true → s.port = .idle → startCheck s.params s.conf = none →
    (seqWork { s with inbox := rest } = .emit i t → step s = exec i t) ∧
    (seqWork { s with inbox := rest } = .read row ch t →
      step s = .next { t with port := .source t.txn row ch, txn := t.txn + 1 })

/-- R213 (I5): a response to a transaction that is not outstanding, which the model tells by its number (log 4), is ignored
and changes no state. -/
def Obligations.LateResponseIsIgnored : Prop :=
  ∀ (s : State) (tag k : Nat) (r : RowResponse) (rest : List Event),
    (∀ row ch, s.port ≠ .source tag row ch) → (∀ raw bytes answer, s.port ≠ .sink tag raw bytes answer) →
    (s.inbox = .source tag r :: rest → step s = .next { s with inbox := rest }) ∧
    (s.inbox = .sink tag k :: rest → step s = .next { s with inbox := rest })

/-- R214, R410: hard reset, one event between any two, gives every register and the sequencer the reset value and
abandons the outstanding transaction, whose prefix the stream has in this event by the model's choice (log 5); the buffers
and the loop variables are unspecified (logs 6, 7). -/
def Obligations.HardResetGivesResetValues : Prop :=
  ∀ (s : State) (rest : List Event), s.inbox = .hardReset :: rest →
    ∃ (taken : List Byte) (d : Nat) (b1 b2 b3 : Memory) (lv : LoopVars) (bus : BusResponse),
      step s = .next { State.resetWith s.params with
        out := s.out ++ taken, inbox := rest, txn := s.txn, draws := d, bbuf := b1, tbuf := b2, pbuf := b3,
        loop := lv, bus := bus } ∧
      (taken = [] ∨ ∃ tag raw bytes answer n, s.port = .sink tag raw bytes answer ∧ n ≤ bytes.length ∧
        taken = bytes.take n)

/-- R32, R410, R412: what every register reads as after reset, that IRQ is 0, and that the machine rests there while no
event comes (an empty event list, the model's choice, log 2). -/
def Obligations.ResetLeavesTheStatedValues : Prop :=
  let s := State.reset
  readReg s .id = 0x424E4431 ∧ readReg s .status = 0 ∧ readReg s .ie = 0 ∧ readReg s .errInfo = 0 ∧
  readReg s .errRow = 0 ∧ readReg s .errExp = 0 ∧ readReg s .errAct = 0 ∧ readReg s .cfg = 0x10 ∧
  readReg s .width = 0 ∧ readReg s .height = 0 ∧ readReg s .pageLen = 1584 ∧ readReg s .chOrder = 0x39 ∧
  readReg s .kDigit = 0x6C ∧ (∀ m, readReg s (.pitchDat m) = 0 ∧ readReg s (.pitchLen m) = 0) ∧
  readReg s .quirkLen = 0 ∧ (∀ q, readReg s (.quirkDat q) = 0) ∧ readReg s .xin0 = 0 ∧ readReg s .xin1 = 0 ∧
  readReg s .xout0 = 0 ∧ readReg s .xout1 = 0 ∧ readReg s .lnum = 0 ∧ readReg s .bandCnt = 0 ∧
  readReg s .byteCnt = 0 ∧ readReg s .adv144 = 0 ∧ readReg s .capW = 1249 ∧ readReg s .capP = 119904 ∧
  s.lh = 16 ∧ s.seq = .idle ∧ s.port = .idle ∧ s.irq = false ∧ step s = .next s

/-- R72, R125: while a page runs, no event but hard reset changes the configuration. -/
def Obligations.ConfigurationIsFixedWhileBusy : Prop :=
  ∀ s t : State, s.busy = true → step s = .next t → (∀ rest, s.inbox ≠ .hardReset :: rest) → t.conf = s.conf

/-- R100, R115: the output stream is append-only, and what one event appends is an initial part of the outstanding
unit. For SRESET and hard reset, that the part comes in the abandoning event is the model's choice (log 5): R213 gives no
moment. -/
def Obligations.OutputStreamIsAppendOnly : Prop :=
  ∀ s t : State, step s = .next t → t.params = s.params ∧ ∃ taken : List Byte, t.out = s.out ++ taken ∧
    (taken = [] ∨ ∃ tag raw bytes answer n, s.port = .sink tag raw bytes answer ∧ taken = bytes.take n)

/-- R122: DONE is set only by a sequencer event (which an empty event list stands for too, log 2). ERR is set only by
the response to the outstanding transaction or by the CMD write of a START. -/
def Obligations.DoneAndErrAreSetOnlyByTheirEvents : Prop :=
  ∀ s t : State, step s = .next t →
    (s.flags.done = false → t.flags.done = true →
      s.busy = true ∧ s.port = .idle ∧ (s.inbox = [] ∨ ∃ rest, s.inbox = .sequencer :: rest)) ∧
    (s.flags.err = false → t.flags.err = true →
      (∃ tag row ch rest, s.port = .source tag row ch ∧ s.inbox = .source tag .fail :: rest) ∨
      (∃ tag raw bytes answer k rest, s.port = .sink tag raw bytes answer ∧ s.inbox = .sink tag k :: rest ∧
        k < bytes.length) ∨
      (∃ a rest, s.inbox = .host a :: rest ∧ decodeBus a = .start ∧ s.busy = false ∧
        startCheck s.params s.conf ≠ none))

/-- The state after reset is consistent. -/
def Obligations.ResetStateIsConsistent : Prop := State.reset.Inv

/-- Every step keeps the state consistent (R36, R38, R41, R65, R66, R72, R81, R120, R343): `State.Inv` says how. -/
def Obligations.EveryStepKeepsTheStateConsistent : Prop :=
  ∀ s t : State, s.Inv → step s = .next t → t.Inv

/-- R116, R111, I7, I8, I11: from a consistent state, an event that keeps the port contracts always gives a next state:
no fault and no refusal of the model (logs 12, 15) is ever met. -/
def Obligations.StepNeverStopsUnderThePortContracts : Prop :=
  ∀ s : State, s.Inv → s.ContractKept → ∃ t, step s = .next t
end

