-- ==== Sys2Proof/Laws/Memory.lean ====
section
/-! SUPPORT. The laws of the buffers: read after write, and the canonical form that every operation keeps. -/

namespace Sys2Proof.Machine

theorem Memory.wfAbove_cons (lo : Option Nat) (x : Nat) (b : Byte) (m : Memory) :
    Memory.wfAbove lo ((x, b) :: m) = true ↔
      (∀ l, lo = some l → l < x) ∧ b ≠ Memory.unlisted ∧ Memory.wfAbove (some x) m = true := by
  cases lo <;> simp [Memory.wfAbove, and_assoc]

theorem Memory.wfAbove_mono {lo lo' : Option Nat} {m : Memory} (h : Memory.wfAbove lo m = true)
    (hl : ∀ l', lo' = some l' → ∃ l, lo = some l ∧ l' ≤ l) : Memory.wfAbove lo' m = true := by
  cases m with
  | nil => rfl
  | cons e m =>
    obtain ⟨x, b⟩ := e
    rw [Memory.wfAbove_cons] at h ⊢
    refine ⟨fun l' hl' => ?_, h.2⟩
    obtain ⟨l, e, hle⟩ := hl l' hl'
    exact Nat.lt_of_le_of_lt hle (h.1 l e)

theorem Memory.wfAbove_wf {l : Nat} {m : Memory} (h : Memory.wfAbove (some l) m = true) : m.wf = true :=
  Memory.wfAbove_mono h (by simp)

@[simp] theorem Memory.wf_nil : Memory.wf [] = true := rfl

@[simp] theorem Memory.read_nil (a : Nat) : Memory.read [] a = Memory.unlisted := rfl

/-- Below and at the bound of a canonical memory nothing is listed. -/
theorem Memory.read_le_bound {l a : Nat} {m : Memory} (h : Memory.wfAbove (some l) m = true) (ha : a ≤ l) :
    m.read a = Memory.unlisted := by
  cases m with
  | nil => rfl
  | cons e m =>
    obtain ⟨x, b⟩ := e
    rw [Memory.wfAbove_cons] at h
    have := h.1 l rfl
    simp [Memory.read, show ¬ a = x by omega, show a < x by omega]

theorem Memory.read_cons_lt (x a : Nat) (b : Byte) (m : Memory) (h : a < x) :
    Memory.read ((x, b) :: m) a = Memory.unlisted := by
  simp [Memory.read, show ¬ a = x by omega, h]

theorem Memory.read_cons_self (x : Nat) (b : Byte) (m : Memory) : Memory.read ((x, b) :: m) x = b := by
  simp [Memory.read]

theorem Memory.read_cons_gt (x a : Nat) (b : Byte) (m : Memory) (h : x < a) :
    Memory.read ((x, b) :: m) a = m.read a := by
  simp [Memory.read, show ¬ a = x by omega, show ¬ a < x by omega]

/-- One write, everything it does: it keeps the canonical form above any bound below its index, and a byte reads as the
written one at its index and as before elsewhere. -/
theorem Memory.write_spec (a : Nat) (b : Byte) (lo : Option Nat) (m : Memory) (h : Memory.wfAbove lo m = true)
    (ha : ∀ l, lo = some l → l < a) :
    Memory.wfAbove lo (Memory.write a b m) = true ∧
      ∀ x, (Memory.write a b m).read x = if x = a then b else m.read x := by
  induction m generalizing lo with
  | nil =>
    by_cases hb : b = Memory.unlisted
    · simp [Memory.write, hb]; rfl
    · simp only [Memory.write, hb, if_false]
      refine ⟨by rw [Memory.wfAbove_cons]; exact ⟨ha, hb, rfl⟩, fun x => ?_⟩
      simp [Memory.read]
  | cons e m ih =>
    obtain ⟨y, c⟩ := e
    rw [Memory.wfAbove_cons] at h
    obtain ⟨hy, hc, hm⟩ := h
    rcases Nat.lt_trichotomy a y with hay | rfl | hya
    · by_cases hb : b = Memory.unlisted
      · subst hb
        simp only [Memory.write, hay, if_true]
        refine ⟨by rw [Memory.wfAbove_cons]; exact ⟨hy, hc, hm⟩, fun x => ?_⟩
        split
        · subst x; exact Memory.read_cons_lt _ _ _ _ hay
        · rfl
      · simp only [Memory.write, hay, if_true, hb, if_false]
        refine ⟨by rw [Memory.wfAbove_cons, Memory.wfAbove_cons]; exact ⟨ha, hb, by simpa using hay, hc, hm⟩, fun x => ?_⟩
        rcases Nat.lt_trichotomy x a with hx | rfl | hx
        · rw [Memory.read_cons_lt _ _ _ _ hx, Memory.read_cons_lt _ _ _ _ (hx.trans hay), if_neg (by omega)]
        · rw [Memory.read_cons_self, if_pos rfl]
        · rw [Memory.read_cons_gt _ _ _ _ hx, if_neg (by omega)]
    · simp only [Memory.write, Nat.lt_irrefl, if_false, if_true]
      by_cases hb : b = Memory.unlisted
      · subst hb
        simp only [if_true]
        refine ⟨Memory.wfAbove_mono hm (fun l hl => ⟨a, rfl, (ha l hl).le⟩), fun x => ?_⟩
        rcases Nat.lt_trichotomy x a with hx | rfl | hx
        · rw [Memory.read_le_bound hm hx.le, Memory.read_cons_lt _ _ _ _ hx, if_neg (by omega)]
        · rw [Memory.read_le_bound hm (Nat.le_refl _), if_pos rfl]
        · rw [Memory.read_cons_gt _ _ _ _ hx, if_neg (by omega)]
      · simp only [hb, if_false]
        refine ⟨by rw [Memory.wfAbove_cons]; exact ⟨ha, hb, hm⟩, fun x => ?_⟩
        rcases Nat.lt_trichotomy x a with hx | rfl | hx
        · rw [Memory.read_cons_lt _ _ _ _ hx, Memory.read_cons_lt _ _ _ _ hx, if_neg (by omega)]
        · rw [Memory.read_cons_self, if_pos rfl]
        · rw [Memory.read_cons_gt _ _ _ _ hx, Memory.read_cons_gt _ _ _ _ hx, if_neg (by omega)]
    · have ih := ih (some y) hm (by simpa using hya)
      simp only [Memory.write, show ¬ a < y by omega, show ¬ a = y by omega, if_false]
      refine ⟨by rw [Memory.wfAbove_cons]; exact ⟨hy, hc, ih.1⟩, fun x => ?_⟩
      rcases Nat.lt_trichotomy x y with hx | rfl | hx
      · rw [Memory.read_cons_lt _ _ _ _ hx, Memory.read_cons_lt _ _ _ _ hx, if_neg (by omega)]
      · rw [Memory.read_cons_self, Memory.read_cons_self, if_neg (by omega)]
      · rw [Memory.read_cons_gt _ _ _ _ hx, Memory.read_cons_gt _ _ _ _ hx, ih.2]

/-- A write keeps the canonical form. -/
theorem Memory.wf_write {m : Memory} (h : m.wf = true) (a : Nat) (b : Byte) : (Memory.write a b m).wf = true :=
  (Memory.write_spec a b none m h (by simp)).1

/-- A byte after a write. -/
theorem Memory.read_write {m : Memory} (h : m.wf = true) (a : Nat) (b : Byte) (x : Nat) :
    (Memory.write a b m).read x = if x = a then b else m.read x :=
  (Memory.write_spec a b none m h (by simp)).2 x

/-- A string of bytes keeps the canonical form. -/
theorem Memory.wf_writeRange {m : Memory} (h : m.wf = true) (a : Nat) (bs : List Byte) :
    (m.writeRange a bs).wf = true := by
  induction bs generalizing a m with
  | nil => exact h
  | cons b bs ih => exact ih (Memory.wf_write h a b) (a + 1)

/-- A byte after a string was written. -/
theorem Memory.read_writeRange {m : Memory} (h : m.wf = true) (a : Nat) (bs : List Byte) (x : Nat) :
    (m.writeRange a bs).read x = if a ≤ x then (bs[x - a]?).getD (m.read x) else m.read x := by
  induction bs generalizing a m with
  | nil => simp [Memory.writeRange]
  | cons b bs ih =>
    rw [Memory.writeRange, ih (Memory.wf_write h a b) (a + 1), Memory.read_write h]
    rcases Nat.lt_trichotomy x a with hx | rfl | hx
    · rw [if_neg (by omega), if_neg (by omega), if_neg (by omega)]
    · simp
    · rw [if_pos (by omega : a + 1 ≤ x), if_pos (by omega : a ≤ x), if_neg (by omega : ¬ x = a),
        show x - a = (x - (a + 1)) + 1 by omega, List.getElem?_cons_succ]

@[simp] theorem Memory.length_readRange (m : Memory) (a n : Nat) : (m.readRange a n).length = n := by
  induction n generalizing a with
  | zero => rfl
  | succ n ih => simp [Memory.readRange, ih]

/-- A byte of a string that was read. -/
theorem Memory.getElem?_readRange (m : Memory) (a n k : Nat) :
    (m.readRange a n)[k]? = if k < n then some (m.read (a + k)) else none := by
  induction n generalizing a k with
  | zero => simp [Memory.readRange]
  | succ n ih =>
    cases k with
    | zero => simp [Memory.readRange]
    | succ k => simp [Memory.readRange, ih, Nat.add_assoc, Nat.add_comm 1 k]

/-- The transposes of a pass keep TBUF canonical. -/
theorem wf_transposeColumns (wmax : Nat) (bbuf : Memory) (n : Nat) {tbuf : Memory} (h : tbuf.wf = true) :
    (transposeColumns wmax bbuf n tbuf).wf = true := by
  induction n with
  | zero => exact h
  | succ n ih => exact Memory.wf_writeRange ih _ _

/-- The scatter of a pass keeps PBUF canonical. -/
theorem wf_scatterColumns (md : Mode) (w base p : Nat) (tbuf : Memory) (n : Nat) {pbuf : Memory}
    (h : pbuf.wf = true) : (scatterColumns md w base p tbuf n pbuf).wf = true := by
  induction n with
  | zero => exact h
  | succ n ih => exact Memory.wf_write ih _ _

/-- The buffers of the reset state are canonical. -/
theorem wf_reset_buffers :
    State.reset.bbuf.wf = true ∧ State.reset.tbuf.wf = true ∧ State.reset.pbuf.wf = true := ⟨rfl, rfl, rfl⟩

end Sys2Proof.Machine
end

