-- ==== Sys2Proof/Laws/State.lean ====
section
/-! SUPPORT. One lemma per field per update of the state, each true by rfl, so that no later proof unfolds an update. -/

namespace Sys2Proof.Machine

section ackWriteFields

variable (s : State)

@[simp] theorem ackWrite_params : (ackWrite s).params = s.params := rfl
@[simp] theorem ackWrite_busy : (ackWrite s).busy = s.busy := rfl
@[simp] theorem ackWrite_flags : (ackWrite s).flags = s.flags := rfl
@[simp] theorem ackWrite_phase : (ackWrite s).phase = s.phase := rfl
@[simp] theorem ackWrite_ie : (ackWrite s).ie = s.ie := rfl
@[simp] theorem ackWrite_errRegs : (ackWrite s).errRegs = s.errRegs := rfl
@[simp] theorem ackWrite_conf : (ackWrite s).conf = s.conf := rfl
@[simp] theorem ackWrite_xin0 : (ackWrite s).xin0 = s.xin0 := rfl
@[simp] theorem ackWrite_xin1 : (ackWrite s).xin1 = s.xin1 := rfl
@[simp] theorem ackWrite_xout0 : (ackWrite s).xout0 = s.xout0 := rfl
@[simp] theorem ackWrite_xout1 : (ackWrite s).xout1 = s.xout1 := rfl
@[simp] theorem ackWrite_prog : (ackWrite s).prog = s.prog := rfl
@[simp] theorem ackWrite_seq : (ackWrite s).seq = s.seq := rfl
@[simp] theorem ackWrite_loop : (ackWrite s).loop = s.loop := rfl
@[simp] theorem ackWrite_lh : (ackWrite s).lh = s.lh := rfl
@[simp] theorem ackWrite_bbuf : (ackWrite s).bbuf = s.bbuf := rfl
@[simp] theorem ackWrite_tbuf : (ackWrite s).tbuf = s.tbuf := rfl
@[simp] theorem ackWrite_pbuf : (ackWrite s).pbuf = s.pbuf := rfl
@[simp] theorem ackWrite_port : (ackWrite s).port = s.port := rfl
@[simp] theorem ackWrite_out : (ackWrite s).out = s.out := rfl
@[simp] theorem ackWrite_bus : (ackWrite s).bus = .write false := rfl
@[simp] theorem ackWrite_inbox : (ackWrite s).inbox = s.inbox := rfl
@[simp] theorem ackWrite_txn : (ackWrite s).txn = s.txn := rfl
@[simp] theorem ackWrite_draws : (ackWrite s).draws = s.draws := rfl

end ackWriteFields

section setCmdErrFields

variable (s : State)

@[simp] theorem setCmdErr_params : (setCmdErr s).params = s.params := rfl
@[simp] theorem setCmdErr_busy : (setCmdErr s).busy = s.busy := rfl
@[simp] theorem setCmdErr_flags : (setCmdErr s).flags = { s.flags with cmdErr := true } := rfl
@[simp] theorem setCmdErr_phase : (setCmdErr s).phase = s.phase := rfl
@[simp] theorem setCmdErr_ie : (setCmdErr s).ie = s.ie := rfl
@[simp] theorem setCmdErr_errRegs : (setCmdErr s).errRegs = s.errRegs := rfl
@[simp] theorem setCmdErr_conf : (setCmdErr s).conf = s.conf := rfl
@[simp] theorem setCmdErr_xin0 : (setCmdErr s).xin0 = s.xin0 := rfl
@[simp] theorem setCmdErr_xin1 : (setCmdErr s).xin1 = s.xin1 := rfl
@[simp] theorem setCmdErr_xout0 : (setCmdErr s).xout0 = s.xout0 := rfl
@[simp] theorem setCmdErr_xout1 : (setCmdErr s).xout1 = s.xout1 := rfl
@[simp] theorem setCmdErr_prog : (setCmdErr s).prog = s.prog := rfl
@[simp] theorem setCmdErr_seq : (setCmdErr s).seq = s.seq := rfl
@[simp] theorem setCmdErr_loop : (setCmdErr s).loop = s.loop := rfl
@[simp] theorem setCmdErr_lh : (setCmdErr s).lh = s.lh := rfl
@[simp] theorem setCmdErr_bbuf : (setCmdErr s).bbuf = s.bbuf := rfl
@[simp] theorem setCmdErr_tbuf : (setCmdErr s).tbuf = s.tbuf := rfl
@[simp] theorem setCmdErr_pbuf : (setCmdErr s).pbuf = s.pbuf := rfl
@[simp] theorem setCmdErr_port : (setCmdErr s).port = s.port := rfl
@[simp] theorem setCmdErr_out : (setCmdErr s).out = s.out := rfl
@[simp] theorem setCmdErr_bus : (setCmdErr s).bus = s.bus := rfl
@[simp] theorem setCmdErr_inbox : (setCmdErr s).inbox = s.inbox := rfl
@[simp] theorem setCmdErr_txn : (setCmdErr s).txn = s.txn := rfl
@[simp] theorem setCmdErr_draws : (setCmdErr s).draws = s.draws := rfl

end setCmdErrFields

section atSeqFields

variable (q : Seq) (s : State)

@[simp] theorem atSeq_params : (atSeq q s).params = s.params := rfl
@[simp] theorem atSeq_busy : (atSeq q s).busy = s.busy := rfl
@[simp] theorem atSeq_flags : (atSeq q s).flags = s.flags := rfl
@[simp] theorem atSeq_phase : (atSeq q s).phase = s.phase := rfl
@[simp] theorem atSeq_ie : (atSeq q s).ie = s.ie := rfl
@[simp] theorem atSeq_errRegs : (atSeq q s).errRegs = s.errRegs := rfl
@[simp] theorem atSeq_conf : (atSeq q s).conf = s.conf := rfl
@[simp] theorem atSeq_xin0 : (atSeq q s).xin0 = s.xin0 := rfl
@[simp] theorem atSeq_xin1 : (atSeq q s).xin1 = s.xin1 := rfl
@[simp] theorem atSeq_xout0 : (atSeq q s).xout0 = s.xout0 := rfl
@[simp] theorem atSeq_xout1 : (atSeq q s).xout1 = s.xout1 := rfl
@[simp] theorem atSeq_prog : (atSeq q s).prog = s.prog := rfl
@[simp] theorem atSeq_seq : (atSeq q s).seq = q := rfl
@[simp] theorem atSeq_loop : (atSeq q s).loop = s.loop := rfl
@[simp] theorem atSeq_lh : (atSeq q s).lh = s.lh := rfl
@[simp] theorem atSeq_bbuf : (atSeq q s).bbuf = s.bbuf := rfl
@[simp] theorem atSeq_tbuf : (atSeq q s).tbuf = s.tbuf := rfl
@[simp] theorem atSeq_pbuf : (atSeq q s).pbuf = s.pbuf := rfl
@[simp] theorem atSeq_port : (atSeq q s).port = s.port := rfl
@[simp] theorem atSeq_out : (atSeq q s).out = s.out := rfl
@[simp] theorem atSeq_bus : (atSeq q s).bus = s.bus := rfl
@[simp] theorem atSeq_inbox : (atSeq q s).inbox = s.inbox := rfl
@[simp] theorem atSeq_txn : (atSeq q s).txn = s.txn := rfl
@[simp] theorem atSeq_draws : (atSeq q s).draws = s.draws := rfl

end atSeqFields

section atPhaseFields

variable (ph : Phase) (s : State)

@[simp] theorem atPhase_params : (atPhase ph s).params = s.params := rfl
@[simp] theorem atPhase_busy : (atPhase ph s).busy = s.busy := rfl
@[simp] theorem atPhase_flags : (atPhase ph s).flags = s.flags := rfl
@[simp] theorem atPhase_phase : (atPhase ph s).phase = ph := rfl
@[simp] theorem atPhase_ie : (atPhase ph s).ie = s.ie := rfl
@[simp] theorem atPhase_errRegs : (atPhase ph s).errRegs = s.errRegs := rfl
@[simp] theorem atPhase_conf : (atPhase ph s).conf = s.conf := rfl
@[simp] theorem atPhase_xin0 : (atPhase ph s).xin0 = s.xin0 := rfl
@[simp] theorem atPhase_xin1 : (atPhase ph s).xin1 = s.xin1 := rfl
@[simp] theorem atPhase_xout0 : (atPhase ph s).xout0 = s.xout0 := rfl
@[simp] theorem atPhase_xout1 : (atPhase ph s).xout1 = s.xout1 := rfl
@[simp] theorem atPhase_prog : (atPhase ph s).prog = s.prog := rfl
@[simp] theorem atPhase_seq : (atPhase ph s).seq = s.seq := rfl
@[simp] theorem atPhase_loop : (atPhase ph s).loop = s.loop := rfl
@[simp] theorem atPhase_lh : (atPhase ph s).lh = s.lh := rfl
@[simp] theorem atPhase_bbuf : (atPhase ph s).bbuf = s.bbuf := rfl
@[simp] theorem atPhase_tbuf : (atPhase ph s).tbuf = s.tbuf := rfl
@[simp] theorem atPhase_pbuf : (atPhase ph s).pbuf = s.pbuf := rfl
@[simp] theorem atPhase_port : (atPhase ph s).port = s.port := rfl
@[simp] theorem atPhase_out : (atPhase ph s).out = s.out := rfl
@[simp] theorem atPhase_bus : (atPhase ph s).bus = s.bus := rfl
@[simp] theorem atPhase_inbox : (atPhase ph s).inbox = s.inbox := rfl
@[simp] theorem atPhase_txn : (atPhase ph s).txn = s.txn := rfl
@[simp] theorem atPhase_draws : (atPhase ph s).draws = s.draws := rfl

end atPhaseFields

section nextChannelFields

variable (s : State)

@[simp] theorem nextChannel_params : (nextChannel s).params = s.params := rfl
@[simp] theorem nextChannel_busy : (nextChannel s).busy = s.busy := rfl
@[simp] theorem nextChannel_flags : (nextChannel s).flags = s.flags := rfl
@[simp] theorem nextChannel_phase : (nextChannel s).phase = s.phase := rfl
@[simp] theorem nextChannel_ie : (nextChannel s).ie = s.ie := rfl
@[simp] theorem nextChannel_errRegs : (nextChannel s).errRegs = s.errRegs := rfl
@[simp] theorem nextChannel_conf : (nextChannel s).conf = s.conf := rfl
@[simp] theorem nextChannel_xin0 : (nextChannel s).xin0 = s.xin0 := rfl
@[simp] theorem nextChannel_xin1 : (nextChannel s).xin1 = s.xin1 := rfl
@[simp] theorem nextChannel_xout0 : (nextChannel s).xout0 = s.xout0 := rfl
@[simp] theorem nextChannel_xout1 : (nextChannel s).xout1 = s.xout1 := rfl
@[simp] theorem nextChannel_prog : (nextChannel s).prog = s.prog := rfl
@[simp] theorem nextChannel_seq : (nextChannel s).seq = s.seq := rfl
@[simp] theorem nextChannel_loop : (nextChannel s).loop = { s.loop with ci := s.loop.ci + 1 } := rfl
@[simp] theorem nextChannel_lh : (nextChannel s).lh = s.lh := rfl
@[simp] theorem nextChannel_bbuf : (nextChannel s).bbuf = s.bbuf := rfl
@[simp] theorem nextChannel_tbuf : (nextChannel s).tbuf = s.tbuf := rfl
@[simp] theorem nextChannel_pbuf : (nextChannel s).pbuf = s.pbuf := rfl
@[simp] theorem nextChannel_port : (nextChannel s).port = s.port := rfl
@[simp] theorem nextChannel_out : (nextChannel s).out = s.out := rfl
@[simp] theorem nextChannel_bus : (nextChannel s).bus = s.bus := rfl
@[simp] theorem nextChannel_inbox : (nextChannel s).inbox = s.inbox := rfl
@[simp] theorem nextChannel_txn : (nextChannel s).txn = s.txn := rfl
@[simp] theorem nextChannel_draws : (nextChannel s).draws = s.draws := rfl

end nextChannelFields

section issueSourceFields

variable (row : BitVec 16) (ch : BitVec 2) (s : State)

@[simp] theorem issueSource_params : (issueSource row ch s).params = s.params := rfl
@[simp] theorem issueSource_busy : (issueSource row ch s).busy = s.busy := rfl
@[simp] theorem issueSource_flags : (issueSource row ch s).flags = s.flags := rfl
@[simp] theorem issueSource_phase : (issueSource row ch s).phase = s.phase := rfl
@[simp] theorem issueSource_ie : (issueSource row ch s).ie = s.ie := rfl
@[simp] theorem issueSource_errRegs : (issueSource row ch s).errRegs = s.errRegs := rfl
@[simp] theorem issueSource_conf : (issueSource row ch s).conf = s.conf := rfl
@[simp] theorem issueSource_xin0 : (issueSource row ch s).xin0 = s.xin0 := rfl
@[simp] theorem issueSource_xin1 : (issueSource row ch s).xin1 = s.xin1 := rfl
@[simp] theorem issueSource_xout0 : (issueSource row ch s).xout0 = s.xout0 := rfl
@[simp] theorem issueSource_xout1 : (issueSource row ch s).xout1 = s.xout1 := rfl
@[simp] theorem issueSource_prog : (issueSource row ch s).prog = s.prog := rfl
@[simp] theorem issueSource_seq : (issueSource row ch s).seq = s.seq := rfl
@[simp] theorem issueSource_loop : (issueSource row ch s).loop = s.loop := rfl
@[simp] theorem issueSource_lh : (issueSource row ch s).lh = s.lh := rfl
@[simp] theorem issueSource_bbuf : (issueSource row ch s).bbuf = s.bbuf := rfl
@[simp] theorem issueSource_tbuf : (issueSource row ch s).tbuf = s.tbuf := rfl
@[simp] theorem issueSource_pbuf : (issueSource row ch s).pbuf = s.pbuf := rfl
@[simp] theorem issueSource_port : (issueSource row ch s).port = .source s.txn row ch := rfl
@[simp] theorem issueSource_out : (issueSource row ch s).out = s.out := rfl
@[simp] theorem issueSource_bus : (issueSource row ch s).bus = s.bus := rfl
@[simp] theorem issueSource_inbox : (issueSource row ch s).inbox = s.inbox := rfl
@[simp] theorem issueSource_txn : (issueSource row ch s).txn = s.txn + 1 := rfl
@[simp] theorem issueSource_draws : (issueSource row ch s).draws = s.draws := rfl

end issueSourceFields

section issueEmitFields

variable (raw : Bool) (bytes : List Byte) (s : State)

@[simp] theorem issueEmit_params : (issueEmit raw bytes s).params = s.params := rfl
@[simp] theorem issueEmit_busy : (issueEmit raw bytes s).busy = s.busy := rfl
@[simp] theorem issueEmit_flags : (issueEmit raw bytes s).flags = s.flags := rfl
@[simp] theorem issueEmit_phase : (issueEmit raw bytes s).phase = s.phase := rfl
@[simp] theorem issueEmit_ie : (issueEmit raw bytes s).ie = s.ie := rfl
@[simp] theorem issueEmit_errRegs : (issueEmit raw bytes s).errRegs = s.errRegs := rfl
@[simp] theorem issueEmit_conf : (issueEmit raw bytes s).conf = s.conf := rfl
@[simp] theorem issueEmit_xin0 : (issueEmit raw bytes s).xin0 = s.xin0 := rfl
@[simp] theorem issueEmit_xin1 : (issueEmit raw bytes s).xin1 = s.xin1 := rfl
@[simp] theorem issueEmit_xout0 : (issueEmit raw bytes s).xout0 = s.xout0 := rfl
@[simp] theorem issueEmit_xout1 : (issueEmit raw bytes s).xout1 = s.xout1 := rfl
@[simp] theorem issueEmit_prog : (issueEmit raw bytes s).prog = s.prog := rfl
@[simp] theorem issueEmit_seq : (issueEmit raw bytes s).seq = s.seq := rfl
@[simp] theorem issueEmit_loop : (issueEmit raw bytes s).loop = s.loop := rfl
@[simp] theorem issueEmit_lh : (issueEmit raw bytes s).lh = s.lh := rfl
@[simp] theorem issueEmit_bbuf : (issueEmit raw bytes s).bbuf = s.bbuf := rfl
@[simp] theorem issueEmit_tbuf : (issueEmit raw bytes s).tbuf = s.tbuf := rfl
@[simp] theorem issueEmit_pbuf : (issueEmit raw bytes s).pbuf = s.pbuf := rfl
@[simp] theorem issueEmit_port : (issueEmit raw bytes s).port = .sink s.txn raw bytes none := rfl
@[simp] theorem issueEmit_out : (issueEmit raw bytes s).out = s.out := rfl
@[simp] theorem issueEmit_bus : (issueEmit raw bytes s).bus = s.bus := rfl
@[simp] theorem issueEmit_inbox : (issueEmit raw bytes s).inbox = s.inbox := rfl
@[simp] theorem issueEmit_txn : (issueEmit raw bytes s).txn = s.txn + 1 := rfl
@[simp] theorem issueEmit_draws : (issueEmit raw bytes s).draws = s.draws := rfl

end issueEmitFields

section acceptBytesFields

variable (bytes : List Byte) (k : Nat) (s : State)

@[simp] theorem acceptBytes_params : (acceptBytes bytes k s).params = s.params := rfl
@[simp] theorem acceptBytes_busy : (acceptBytes bytes k s).busy = s.busy := rfl
@[simp] theorem acceptBytes_flags : (acceptBytes bytes k s).flags = s.flags := rfl
@[simp] theorem acceptBytes_phase : (acceptBytes bytes k s).phase = s.phase := rfl
@[simp] theorem acceptBytes_ie : (acceptBytes bytes k s).ie = s.ie := rfl
@[simp] theorem acceptBytes_errRegs : (acceptBytes bytes k s).errRegs = s.errRegs := rfl
@[simp] theorem acceptBytes_conf : (acceptBytes bytes k s).conf = s.conf := rfl
@[simp] theorem acceptBytes_xin0 : (acceptBytes bytes k s).xin0 = s.xin0 := rfl
@[simp] theorem acceptBytes_xin1 : (acceptBytes bytes k s).xin1 = s.xin1 := rfl
@[simp] theorem acceptBytes_xout0 : (acceptBytes bytes k s).xout0 = s.xout0 := rfl
@[simp] theorem acceptBytes_xout1 : (acceptBytes bytes k s).xout1 = s.xout1 := rfl
@[simp] theorem acceptBytes_prog : (acceptBytes bytes k s).prog = { s.prog with byteCnt := s.prog.byteCnt + BitVec.ofNat 32 k } := rfl
@[simp] theorem acceptBytes_seq : (acceptBytes bytes k s).seq = s.seq := rfl
@[simp] theorem acceptBytes_loop : (acceptBytes bytes k s).loop = s.loop := rfl
@[simp] theorem acceptBytes_lh : (acceptBytes bytes k s).lh = s.lh := rfl
@[simp] theorem acceptBytes_bbuf : (acceptBytes bytes k s).bbuf = s.bbuf := rfl
@[simp] theorem acceptBytes_tbuf : (acceptBytes bytes k s).tbuf = s.tbuf := rfl
@[simp] theorem acceptBytes_pbuf : (acceptBytes bytes k s).pbuf = s.pbuf := rfl
@[simp] theorem acceptBytes_port : (acceptBytes bytes k s).port = .idle := rfl
@[simp] theorem acceptBytes_out : (acceptBytes bytes k s).out = s.out ++ bytes.take k := rfl
@[simp] theorem acceptBytes_bus : (acceptBytes bytes k s).bus = s.bus := rfl
@[simp] theorem acceptBytes_inbox : (acceptBytes bytes k s).inbox = s.inbox := rfl
@[simp] theorem acceptBytes_txn : (acceptBytes bytes k s).txn = s.txn := rfl
@[simp] theorem acceptBytes_draws : (acceptBytes bytes k s).draws = s.draws := rfl

end acceptBytesFields

section answeredFields

variable (tag : Nat) (raw : Bool) (bytes : List Byte) (k : Nat) (s : State)

@[simp] theorem answered_params : (answered tag raw bytes k s).params = s.params := rfl
@[simp] theorem answered_busy : (answered tag raw bytes k s).busy = s.busy := rfl
@[simp] theorem answered_flags : (answered tag raw bytes k s).flags = s.flags := rfl
@[simp] theorem answered_phase : (answered tag raw bytes k s).phase = s.phase := rfl
@[simp] theorem answered_ie : (answered tag raw bytes k s).ie = s.ie := rfl
@[simp] theorem answered_errRegs : (answered tag raw bytes k s).errRegs = s.errRegs := rfl
@[simp] theorem answered_conf : (answered tag raw bytes k s).conf = s.conf := rfl
@[simp] theorem answered_xin0 : (answered tag raw bytes k s).xin0 = s.xin0 := rfl
@[simp] theorem answered_xin1 : (answered tag raw bytes k s).xin1 = s.xin1 := rfl
@[simp] theorem answered_xout0 : (answered tag raw bytes k s).xout0 = s.xout0 := rfl
@[simp] theorem answered_xout1 : (answered tag raw bytes k s).xout1 = s.xout1 := rfl
@[simp] theorem answered_prog : (answered tag raw bytes k s).prog = s.prog := rfl
@[simp] theorem answered_seq : (answered tag raw bytes k s).seq = s.seq := rfl
@[simp] theorem answered_loop : (answered tag raw bytes k s).loop = s.loop := rfl
@[simp] theorem answered_lh : (answered tag raw bytes k s).lh = s.lh := rfl
@[simp] theorem answered_bbuf : (answered tag raw bytes k s).bbuf = s.bbuf := rfl
@[simp] theorem answered_tbuf : (answered tag raw bytes k s).tbuf = s.tbuf := rfl
@[simp] theorem answered_pbuf : (answered tag raw bytes k s).pbuf = s.pbuf := rfl
@[simp] theorem answered_port : (answered tag raw bytes k s).port = .sink tag raw bytes (some k) := rfl
@[simp] theorem answered_out : (answered tag raw bytes k s).out = s.out := rfl
@[simp] theorem answered_bus : (answered tag raw bytes k s).bus = s.bus := rfl
@[simp] theorem answered_inbox : (answered tag raw bytes k s).inbox = s.inbox := rfl
@[simp] theorem answered_txn : (answered tag raw bytes k s).txn = s.txn := rfl
@[simp] theorem answered_draws : (answered tag raw bytes k s).draws = s.draws := rfl

end answeredFields

section raiseFields

variable (e : ErrRegs) (s : State)

@[simp] theorem raise_params : (raise e s).params = s.params := rfl
@[simp] theorem raise_busy : (raise e s).busy = false := rfl
@[simp] theorem raise_flags : (raise e s).flags = { s.flags with err := true } := rfl
@[simp] theorem raise_phase : (raise e s).phase = .idle := rfl
@[simp] theorem raise_ie : (raise e s).ie = s.ie := rfl
@[simp] theorem raise_errRegs : (raise e s).errRegs = e := rfl
@[simp] theorem raise_conf : (raise e s).conf = s.conf := rfl
@[simp] theorem raise_xin0 : (raise e s).xin0 = s.xin0 := rfl
@[simp] theorem raise_xin1 : (raise e s).xin1 = s.xin1 := rfl
@[simp] theorem raise_xout0 : (raise e s).xout0 = s.xout0 := rfl
@[simp] theorem raise_xout1 : (raise e s).xout1 = s.xout1 := rfl
@[simp] theorem raise_prog : (raise e s).prog = s.prog := rfl
@[simp] theorem raise_seq : (raise e s).seq = .idle := rfl
@[simp] theorem raise_loop : (raise e s).loop = s.loop := rfl
@[simp] theorem raise_lh : (raise e s).lh = s.lh := rfl
@[simp] theorem raise_bbuf : (raise e s).bbuf = s.bbuf := rfl
@[simp] theorem raise_tbuf : (raise e s).tbuf = s.tbuf := rfl
@[simp] theorem raise_pbuf : (raise e s).pbuf = s.pbuf := rfl
@[simp] theorem raise_port : (raise e s).port = .idle := rfl
@[simp] theorem raise_out : (raise e s).out = s.out := rfl
@[simp] theorem raise_bus : (raise e s).bus = s.bus := rfl
@[simp] theorem raise_inbox : (raise e s).inbox = s.inbox := rfl
@[simp] theorem raise_txn : (raise e s).txn = s.txn := rfl
@[simp] theorem raise_draws : (raise e s).draws = s.draws := rfl

end raiseFields

section pageDoneFields

variable (s : State)

@[simp] theorem pageDone_params : (pageDone s).params = s.params := rfl
@[simp] theorem pageDone_busy : (pageDone s).busy = false := rfl
@[simp] theorem pageDone_flags : (pageDone s).flags = { s.flags with done := true } := rfl
@[simp] theorem pageDone_phase : (pageDone s).phase = .idle := rfl
@[simp] theorem pageDone_ie : (pageDone s).ie = s.ie := rfl
@[simp] theorem pageDone_errRegs : (pageDone s).errRegs = s.errRegs := rfl
@[simp] theorem pageDone_conf : (pageDone s).conf = s.conf := rfl
@[simp] theorem pageDone_xin0 : (pageDone s).xin0 = s.xin0 := rfl
@[simp] theorem pageDone_xin1 : (pageDone s).xin1 = s.xin1 := rfl
@[simp] theorem pageDone_xout0 : (pageDone s).xout0 = s.xout0 := rfl
@[simp] theorem pageDone_xout1 : (pageDone s).xout1 = s.xout1 := rfl
@[simp] theorem pageDone_prog : (pageDone s).prog = s.prog := rfl
@[simp] theorem pageDone_seq : (pageDone s).seq = .idle := rfl
@[simp] theorem pageDone_loop : (pageDone s).loop = s.loop := rfl
@[simp] theorem pageDone_lh : (pageDone s).lh = s.lh := rfl
@[simp] theorem pageDone_bbuf : (pageDone s).bbuf = s.bbuf := rfl
@[simp] theorem pageDone_tbuf : (pageDone s).tbuf = s.tbuf := rfl
@[simp] theorem pageDone_pbuf : (pageDone s).pbuf = s.pbuf := rfl
@[simp] theorem pageDone_port : (pageDone s).port = s.port := rfl
@[simp] theorem pageDone_out : (pageDone s).out = s.out := rfl
@[simp] theorem pageDone_bus : (pageDone s).bus = s.bus := rfl
@[simp] theorem pageDone_inbox : (pageDone s).inbox = s.inbox := rfl
@[simp] theorem pageDone_txn : (pageDone s).txn = s.txn := rfl
@[simp] theorem pageDone_draws : (pageDone s).draws = s.draws := rfl

end pageDoneFields

section storeRowFields

variable (d : List Byte) (s : State)

@[simp] theorem storeRow_params : (storeRow d s).params = s.params := rfl
@[simp] theorem storeRow_busy : (storeRow d s).busy = s.busy := rfl
@[simp] theorem storeRow_flags : (storeRow d s).flags = s.flags := rfl
@[simp] theorem storeRow_phase : (storeRow d s).phase = s.phase := rfl
@[simp] theorem storeRow_ie : (storeRow d s).ie = s.ie := rfl
@[simp] theorem storeRow_errRegs : (storeRow d s).errRegs = s.errRegs := rfl
@[simp] theorem storeRow_conf : (storeRow d s).conf = s.conf := rfl
@[simp] theorem storeRow_xin0 : (storeRow d s).xin0 = s.xin0 := rfl
@[simp] theorem storeRow_xin1 : (storeRow d s).xin1 = s.xin1 := rfl
@[simp] theorem storeRow_xout0 : (storeRow d s).xout0 = s.xout0 := rfl
@[simp] theorem storeRow_xout1 : (storeRow d s).xout1 = s.xout1 := rfl
@[simp] theorem storeRow_prog : (storeRow d s).prog = s.prog := rfl
@[simp] theorem storeRow_seq : (storeRow d s).seq = s.seq := rfl
@[simp] theorem storeRow_loop : (storeRow d s).loop = s.loop := rfl
@[simp] theorem storeRow_lh : (storeRow d s).lh = s.lh := rfl
@[simp] theorem storeRow_bbuf : (storeRow d s).bbuf = s.bbuf.writeRange (bbufIndex s.params.wmax (7 - s.loop.s.toNat) 0) d := rfl
@[simp] theorem storeRow_tbuf : (storeRow d s).tbuf = s.tbuf := rfl
@[simp] theorem storeRow_pbuf : (storeRow d s).pbuf = s.pbuf := rfl
@[simp] theorem storeRow_port : (storeRow d s).port = s.port := rfl
@[simp] theorem storeRow_out : (storeRow d s).out = s.out := rfl
@[simp] theorem storeRow_bus : (storeRow d s).bus = s.bus := rfl
@[simp] theorem storeRow_inbox : (storeRow d s).inbox = s.inbox := rfl
@[simp] theorem storeRow_txn : (storeRow d s).txn = s.txn := rfl
@[simp] theorem storeRow_draws : (storeRow d s).draws = s.draws := rfl

end storeRowFields

section startClearFields

variable (s : State)

@[simp] theorem startClear_params : (startClear s).params = s.params := rfl
@[simp] theorem startClear_busy : (startClear s).busy = s.busy := rfl
@[simp] theorem startClear_flags : (startClear s).flags = { s.flags with done := false, err := false } := rfl
@[simp] theorem startClear_phase : (startClear s).phase = s.phase := rfl
@[simp] theorem startClear_ie : (startClear s).ie = s.ie := rfl
@[simp] theorem startClear_errRegs : (startClear s).errRegs = ErrRegs.clear := rfl
@[simp] theorem startClear_conf : (startClear s).conf = s.conf := rfl
@[simp] theorem startClear_xin0 : (startClear s).xin0 = s.xin0 := rfl
@[simp] theorem startClear_xin1 : (startClear s).xin1 = s.xin1 := rfl
@[simp] theorem startClear_xout0 : (startClear s).xout0 = s.xout0 := rfl
@[simp] theorem startClear_xout1 : (startClear s).xout1 = s.xout1 := rfl
@[simp] theorem startClear_prog : (startClear s).prog = Progress.clear := rfl
@[simp] theorem startClear_seq : (startClear s).seq = s.seq := rfl
@[simp] theorem startClear_loop : (startClear s).loop = s.loop := rfl
@[simp] theorem startClear_lh : (startClear s).lh = s.lh := rfl
@[simp] theorem startClear_bbuf : (startClear s).bbuf = s.bbuf := rfl
@[simp] theorem startClear_tbuf : (startClear s).tbuf = s.tbuf := rfl
@[simp] theorem startClear_pbuf : (startClear s).pbuf = s.pbuf := rfl
@[simp] theorem startClear_port : (startClear s).port = s.port := rfl
@[simp] theorem startClear_out : (startClear s).out = s.out := rfl
@[simp] theorem startClear_bus : (startClear s).bus = s.bus := rfl
@[simp] theorem startClear_inbox : (startClear s).inbox = s.inbox := rfl
@[simp] theorem startClear_txn : (startClear s).txn = s.txn := rfl
@[simp] theorem startClear_draws : (startClear s).draws = s.draws := rfl

end startClearFields

section startAcceptFields

variable (s : State)

@[simp] theorem startAccept_params : (startAccept s).params = s.params := rfl
@[simp] theorem startAccept_busy : (startAccept s).busy = true := rfl
@[simp] theorem startAccept_flags : (startAccept s).flags = s.flags := rfl
@[simp] theorem startAccept_phase : (startAccept s).phase = .init := rfl
@[simp] theorem startAccept_ie : (startAccept s).ie = s.ie := rfl
@[simp] theorem startAccept_errRegs : (startAccept s).errRegs = s.errRegs := rfl
@[simp] theorem startAccept_conf : (startAccept s).conf = s.conf := rfl
@[simp] theorem startAccept_xin0 : (startAccept s).xin0 = s.xin0 := rfl
@[simp] theorem startAccept_xin1 : (startAccept s).xin1 = s.xin1 := rfl
@[simp] theorem startAccept_xout0 : (startAccept s).xout0 = s.xout0 := rfl
@[simp] theorem startAccept_xout1 : (startAccept s).xout1 = s.xout1 := rfl
@[simp] theorem startAccept_prog : (startAccept s).prog = s.prog := rfl
@[simp] theorem startAccept_seq : (startAccept s).seq = .initDir := rfl
@[simp] theorem startAccept_loop : (startAccept s).loop = s.loop := rfl
@[simp] theorem startAccept_lh : (startAccept s).lh = s.lh := rfl
@[simp] theorem startAccept_bbuf : (startAccept s).bbuf = s.bbuf := rfl
@[simp] theorem startAccept_tbuf : (startAccept s).tbuf = s.tbuf := rfl
@[simp] theorem startAccept_pbuf : (startAccept s).pbuf = s.pbuf := rfl
@[simp] theorem startAccept_port : (startAccept s).port = s.port := rfl
@[simp] theorem startAccept_out : (startAccept s).out = s.out := rfl
@[simp] theorem startAccept_bus : (startAccept s).bus = s.bus := rfl
@[simp] theorem startAccept_inbox : (startAccept s).inbox = s.inbox := rfl
@[simp] theorem startAccept_txn : (startAccept s).txn = s.txn := rfl
@[simp] theorem startAccept_draws : (startAccept s).draws = s.draws := rfl

end startAcceptFields

section advancePaperFields

variable (s : State)

@[simp] theorem advancePaper_params : (advancePaper s).params = s.params := rfl
@[simp] theorem advancePaper_busy : (advancePaper s).busy = s.busy := rfl
@[simp] theorem advancePaper_flags : (advancePaper s).flags = s.flags := rfl
@[simp] theorem advancePaper_phase : (advancePaper s).phase = s.phase := rfl
@[simp] theorem advancePaper_ie : (advancePaper s).ie = s.ie := rfl
@[simp] theorem advancePaper_errRegs : (advancePaper s).errRegs = s.errRegs := rfl
@[simp] theorem advancePaper_conf : (advancePaper s).conf = s.conf := rfl
@[simp] theorem advancePaper_xin0 : (advancePaper s).xin0 = s.xin0 := rfl
@[simp] theorem advancePaper_xin1 : (advancePaper s).xin1 = s.xin1 := rfl
@[simp] theorem advancePaper_xout0 : (advancePaper s).xout0 = s.xout0 := rfl
@[simp] theorem advancePaper_xout1 : (advancePaper s).xout1 = s.xout1 := rfl
@[simp] theorem advancePaper_prog : (advancePaper s).prog = { s.prog with adv144 := s.prog.adv144 + s.lh.zeroExtend 32 } := rfl
@[simp] theorem advancePaper_seq : (advancePaper s).seq = s.seq := rfl
@[simp] theorem advancePaper_loop : (advancePaper s).loop = s.loop := rfl
@[simp] theorem advancePaper_lh : (advancePaper s).lh = s.lh := rfl
@[simp] theorem advancePaper_bbuf : (advancePaper s).bbuf = s.bbuf := rfl
@[simp] theorem advancePaper_tbuf : (advancePaper s).tbuf = s.tbuf := rfl
@[simp] theorem advancePaper_pbuf : (advancePaper s).pbuf = s.pbuf := rfl
@[simp] theorem advancePaper_port : (advancePaper s).port = s.port := rfl
@[simp] theorem advancePaper_out : (advancePaper s).out = s.out := rfl
@[simp] theorem advancePaper_bus : (advancePaper s).bus = s.bus := rfl
@[simp] theorem advancePaper_inbox : (advancePaper s).inbox = s.inbox := rfl
@[simp] theorem advancePaper_txn : (advancePaper s).txn = s.txn := rfl
@[simp] theorem advancePaper_draws : (advancePaper s).draws = s.draws := rfl

end advancePaperFields

end Sys2Proof.Machine
end

