-- ==== Sys2Proof/Laws/Ops.lean ====
section
/-! SUPPORT. One lemma per shared operation that says once everything it can do. -/

namespace Sys2Proof.Machine

open Sys2Proof.Config

/-! ### Emit (R320) -/

/-- The effect of a unit of its own, once it is fully accepted (R321). -/
def unitEffect : Instr → State → State
  | .escT f => setLineHeight f
  | .lf => advancePaper
  | _ => noEffect

/-- The meaning of every wire unit is Emit of its bytes, its kind and its own effect. -/
theorem exec_unit {i : Instr} (h : isUnit i = true) (s : State) :
    exec i s = emitUnit (isRaw i) (wireBytes i) (unitEffect i) s := by
  cases i <;> first | rfl | (simp [isUnit, encode] at h)

/-- The code of a unit is its kind and its bytes. -/
theorem encode_unit {i : Instr} (h : isUnit i = true) : encode i = .wire (isRaw i) (wireBytes i) := by
  cases i <;> first | rfl | (simp [isUnit, encode] at h)

theorem completeEmit_short {bytes : List Byte} {k : Nat} (h : k < bytes.length) (eff : State → State) (s : State) :
    completeEmit bytes k eff s = .next (raiseWrite bytes.length k (acceptBytes bytes k s)) := by
  simp [completeEmit, h, show ¬ bytes.length < k by omega]

theorem completeEmit_full (bytes : List Byte) (eff : State → State) (s : State) :
    completeEmit bytes bytes.length eff s = .next (eff (acceptBytes bytes bytes.length s)) := by
  simp [completeEmit]

/-- The response part of Emit: what its next state is. -/
theorem completeEmit_next {bytes : List Byte} {k : Nat} {eff : State → State} {s t : State}
    (h : completeEmit bytes k eff s = .next t) :
    (k < bytes.length ∧ t = raiseWrite bytes.length k (acceptBytes bytes k s)) ∨
      (k = bytes.length ∧ t = eff (acceptBytes bytes k s)) := by
  unfold completeEmit at h
  split at h
  · cases h
  · split at h
    · next hk => exact .inl ⟨hk, by cases h; rfl⟩
    · next h1 h2 => exact .inr ⟨by omega, by cases h; rfl⟩

theorem emitUnit_idle {s : State} (h : s.port = .idle) (raw : Bool) (bytes : List Byte) (eff : State → State) :
    emitUnit raw bytes eff s = .next (issueEmit raw bytes s) := by
  simp [emitUnit, h]

theorem emitUnit_answered {s : State} {tag k : Nat} {raw : Bool} {bytes : List Byte}
    (h : s.port = .sink tag raw bytes (some k)) (eff : State → State) :
    emitUnit raw bytes eff s = completeEmit bytes k eff s := by
  simp [emitUnit, h]

/-- Emit, everything its next state can be: the request is issued; it waits; or its answer has been applied. -/
theorem emitUnit_next {raw : Bool} {bytes : List Byte} {eff : State → State} {s t : State}
    (h : emitUnit raw bytes eff s = .next t) :
    (s.port = .idle ∧ t = issueEmit raw bytes s) ∨
      (∃ tag, s.port = .sink tag raw bytes none ∧ t = s) ∨
      (∃ tag k, s.port = .sink tag raw bytes (some k) ∧ completeEmit bytes k eff s = .next t) := by
  unfold emitUnit at h
  split at h
  · next hp => exact .inl ⟨hp, by cases h; rfl⟩
  · cases h
  · next tag raw' bytes' answer hp =>
    split at h
    · next he =>
      obtain ⟨rfl, rfl⟩ := he
      cases answer with
      | none => exact .inr (.inl ⟨tag, hp, by cases h; rfl⟩)
      | some k => exact .inr (.inr ⟨tag, k, hp, h⟩)
    · cases h

/-! ### Abandoning a transaction (R213) -/

/-- Abandoning ends the transaction, appends a prefix of an Emit's bytes and no more, and changes nothing else but the
count of free draws. -/
theorem abandon_spec (s : State) :
    ∃ taken : List Byte, ∃ d : Nat,
      abandon s = { s with port := .idle, out := s.out ++ taken, draws := d } ∧
      (taken = [] ∨ ∃ tag raw bytes answer, s.port = .sink tag raw bytes answer ∧ taken = abandonedBytes s.draws bytes) := by
  unfold abandon
  split
  · next h => exact ⟨[], s.draws, by cases s; simp_all, .inl rfl⟩
  · exact ⟨[], s.draws, by simp, .inl rfl⟩
  · next tag raw bytes answer h => exact ⟨_, s.draws + 1, rfl, .inr ⟨tag, raw, bytes, answer, h, rfl⟩⟩

/-- What the sink takes of an abandoned Emit is a prefix of it (I9). -/
theorem abandonedBytes_take (d : Nat) (bytes : List Byte) :
    ∃ n ≤ bytes.length, abandonedBytes d bytes = bytes.take n :=
  ⟨_, Nat.le_of_lt_succ (Nat.mod_lt _ (Nat.succ_pos _)), rfl⟩

/-! ### What a reset leaves unspecified -/

/-- The buffers and the loop variables take some values, the buffers in canonical form; nothing else changes but the
count of free draws. -/
theorem forget_spec (s : State) :
    ∃ (b1 b2 b3 : Memory) (lv : LoopVars), b1.wf = true ∧ b2.wf = true ∧ b3.wf = true ∧
      forget s = { s with bbuf := b1, tbuf := b2, pbuf := b3, loop := lv, draws := s.draws + 1 } :=
  ⟨_, _, _, _, Memory.wf_writeRange rfl _ _, Memory.wf_writeRange rfl _ _, Memory.wf_writeRange rfl _ _, rfl⟩

/-! ### Register writes (R201) -/

/-- A locked write: WLOCK while BUSY = 1, else the configuration (R72). -/
theorem writeLocked_spec (r : Reg) (v : Word) (s : State) :
    (s.busy = true ∧ writeLocked r v s = { s with flags := { s.flags with wlock := true } }) ∨
      (s.busy = false ∧ writeLocked r v s = { s with conf := writeConf r v s.conf }) := by
  unfold writeLocked
  cases s.busy <;> simp

/-- A write to an RW register changes IE and XIN only (R42, R63). -/
theorem writeRw_spec (r : Reg) (v : Word) (s : State) :
    ∃ e x y, writeRw r v s = { s with ie := e, xin0 := x, xin1 := y } := by
  unfold writeRw
  split
  · exact ⟨_, _, _, rfl⟩
  · exact ⟨_, _, _, rfl⟩
  · exact ⟨_, _, _, rfl⟩
  · exact ⟨s.ie, s.xin0, s.xin1, rfl⟩

/-! ### START (R203) -/

/-- START, everything it can do: refused, failed at its first failing check, or accepted. -/
theorem doStart_spec (s : State) :
    (s.busy = true ∧ doStart s = setCmdErr s) ∨
      (∃ f, s.busy = false ∧ startCheck s.params s.conf = some f ∧ doStart s = startFail f (startClear s)) ∨
      (s.busy = false ∧ startCheck s.params s.conf = none ∧ doStart s = startAccept (startClear s)) := by
  unfold doStart
  cases hb : s.busy with
  | true => exact .inl ⟨rfl, by simp⟩
  | false =>
    cases hc : startCheck s.params s.conf with
    | some f => exact .inr (.inl ⟨f, rfl, rfl, by simp⟩)
    | none => exact .inr (.inr ⟨rfl, rfl, by simp⟩)

/-- A failed check is CONFIG or ALLOC. -/
theorem startCheck_code {k : Params} {c : ConfRegs} {f : CheckFailure} (h : startCheck k c = some f) :
    f.code = .config ∨ f.code = .alloc := by
  unfold startCheck configFail allocFail at h
  repeat' split at h
  all_goals first | (cases h; simp) | simp at h

/-- What an accepted configuration satisfies (R203, R375, R376). -/
theorem startCheck_none {k : Params} {c : ConfRegs} (h : startCheck k c = none) :
    (c.channels = 1 ∨ c.channels = 4) ∧ (0 < c.rowBytes ∧ c.rowBytes ≤ 1249) ∧
      (c.channels = 4 → orderIsPermutation c = true) ∧ c.activePitchLen ≤ 4 ∧
      (c.formfeedEject = true → c.quirkLen.toNat ≤ 16) ∧ c.rowBytes ≤ k.wmax ∧
      c.channels * c.regionLen ≤ k.pbufCap := by
  unfold startCheck configFail allocFail at h
  split at h
  · simp at h
  split at h
  · simp at h
  split at h
  · simp at h
  split at h
  · simp at h
  split at h
  · simp at h
  split at h
  · simp at h
  split at h
  · simp at h
  next h1 h2 h3 h4 h5 h6 h7 =>
  refine ⟨by omega, by omega, fun e => ?_, by omega, fun e => ?_, by omega, by omega⟩
  · by_contra hne
    exact h3 ⟨e, by simpa using hne⟩
  · by_contra hne
    exact h5 ⟨e, by omega⟩

/-! ### The source's response (R255) -/

/-- The source's response, everything its next state can be: the row stored, a zero row stored, or SOURCE raised. -/
theorem applyRow_next {row : BitVec 16} {ch : BitVec 2} {r : RowResponse} {s t : State}
    (h : applyRow row ch r s = .next t) :
    (∃ d, r = .row d ∧ d.length = s.conf.rowBytes ∧ t = storeRow d { s with port := .idle }) ∨
      (r = .endOfPage ∧ t = storeZeroRow { s with port := .idle }) ∨ (r = .fail ∧ t = raiseSource row ch s) := by
  unfold applyRow at h
  split at h
  · next d =>
    split at h
    · cases h
    · next hl =>
      split at h
      · cases h
      · exact .inl ⟨d, rfl, by simpa using hl, by cases h; rfl⟩
  · split at h
    · cases h
    · exact .inr (.inl ⟨rfl, by cases h; rfl⟩)
  · exact .inr (.inr ⟨rfl, by cases h; rfl⟩)

/-! ### The sequencer's work (R121) -/

theorem runInternal_go {n : Nat} {s s' : State} (h : seqAction s = .go s') :
    runInternal (n + 1) s = runInternal n s' := by
  simp [runInternal, h]

theorem runInternal_stop {n : Nat} {s : State} {a : Action} (h : seqAction s = a) (hn : ∀ s', a ≠ .go s') :
    runInternal (n + 1) s = a := by
  subst h
  unfold runInternal
  split <;> simp_all

/-- What holds of every position's action along an event's internal work holds of the work's answer: `Q` is kept by
internal work, and every other action from a state with `Q` has `R`. -/
theorem runInternal_induction {Q : State → Prop} {R : Action → Prop}
    (hgo : ∀ s s', Q s → seqAction s = .go s' → Q s') (hend : ∀ s, Q s → (∀ s', seqAction s ≠ .go s') → R (seqAction s))
    (n : Nat) (s : State) (hs : Q s) : R (runInternal n s) ∨ ∃ s', Q s' ∧ runInternal n s = .go s' := by
  induction n generalizing s with
  | zero => exact .inr ⟨s, hs, rfl⟩
  | succ n ih =>
    cases ha : seqAction s with
    | go s' => rw [runInternal_go ha]; exact ih s' (hgo s s' hs ha)
    | emit i s' => rw [runInternal_stop ha (by simp)]; exact .inl (ha ▸ hend s hs (by simp [ha]))
    | read r c s' => rw [runInternal_stop ha (by simp)]; exact .inl (ha ▸ hend s hs (by simp [ha]))
    | done s' => rw [runInternal_stop ha (by simp)]; exact .inl (ha ▸ hend s hs (by simp [ha]))
    | stop f => rw [runInternal_stop ha (by simp)]; exact .inl (ha ▸ hend s hs (by simp [ha]))

end Sys2Proof.Machine
end

