-- ==== Sys2Proof/Laws/PerInstr.lean ====
section
/-! SUPPORT. The per-instruction family `UnitLength`: a well-formed instruction that is a wire unit has 1 to 29982
bytes, the range of an Emit (20_memory.md R115, 44_protocol_driver.md R320); one lemma per constructor. -/

namespace Sys2Proof.Laws.UnitLength

open Sys2Proof.Machine

/-- A wire unit has 1 to 29982 bytes; a host access has none. -/
def Statement (i : Instr) : Prop :=
  WellFormed i → if isUnit i then 1 ≤ (wireBytes i).length ∧ (wireBytes i).length ≤ 29982 else wireBytes i = []

theorem nop : Statement .nop := fun _ => by decide
theorem start : Statement .start := fun _ => by decide
theorem xpose : Statement .xpose := fun _ => by decide
theorem illegal3 : Statement .illegal3 := fun _ => by decide
theorem illegal4to7 (lo : BitVec 2) : Statement (.illegal4to7 lo) := fun _ => rfl
theorem illegal8toB (lo : BitVec 2) : Statement (.illegal8toB lo) := fun _ => rfl
theorem illegalCtoD (lo : BitVec 1) : Statement (.illegalCtoD lo) := fun _ => rfl
theorem illegalE : Statement .illegalE := fun _ => by decide
theorem sreset : Statement .sreset := fun _ => by decide
theorem csrr (off : BitVec 8) : Statement (.csrr off) := fun _ => rfl
theorem csrw (off : BitVec 8) (v : Word) : Statement (.csrw off v) := fun _ => rfl
theorem escBidi : Statement .escBidi := fun _ => by decide
theorem escUni : Statement .escUni := fun _ => by decide
theorem escA : Statement .escA := fun _ => by decide
theorem escB : Statement .escB := fun _ => by decide
theorem escE : Statement .escE := fun _ => by decide
theorem escK (d : BitVec 2) : Statement (.escK d) := fun _ => by simp [isUnit, encode, wireBytes, unitRibbon]
theorem escT (nn : Dec2) : Statement (.escT nn) := fun _ => by simp [isUnit, encode, wireBytes, unitLineHeight]

theorem escG (nnnn : Dec4) (payload : List Byte) : Statement (.escG nnnn payload) := fun h => by
  obtain ⟨_, h1, h2, h3⟩ := h
  simp only [isUnit, encode, wireBytes, unitData, List.length_append, List.length_cons, List.length_nil, if_true]
  omega

theorem escV (nnnn : Dec4) : Statement (.escV nnnn) := fun _ => by simp [isUnit, encode, wireBytes, unitFill]

theorem escC (nnnn : Dec4) (payload : List Byte) : Statement (.escC nnnn payload) := fun h => by
  obtain ⟨_, h1, h2, h3⟩ := h
  simp only [isUnit, encode, wireBytes, unitData, List.length_append, List.length_cons, List.length_nil, if_true]
  omega

theorem escU (nnnn : Dec4) : Statement (.escU nnnn) := fun _ => by simp [isUnit, encode, wireBytes, unitFill]
theorem cr : Statement .cr := fun _ => by decide
theorem lf : Statement .lf := fun _ => by decide
theorem ff : Statement .ff := fun _ => by decide

theorem raw (bytes : List Byte) : Statement (.raw bytes) := fun h => by
  obtain ⟨h1, h2⟩ := h
  simp only [isUnit, encode, wireBytes, if_true]
  omega

end Sys2Proof.Laws.UnitLength
end

