-- ==== Sys2Proof/Tests/Slice0.lean ====
section
/-! SUPPORT. Tests. Expected results come from spec/95_test_vectors.md (V-...) or are written out from the encodings of
spec/30_encoding.md; `wit_` tests show states and operands that meet the hypotheses of a statement. -/

namespace Sys2Proof.Tests

open Sys2Proof.Machine Sys2Proof.Config

/-! ### Helpers -/

/-- The next state of a result, if it is one. -/
def after : Result → Option State
  | .next s => some s
  | .fault _ => none
  | .refused _ => none

/-- The fault of a result, if it is one. -/
def faultOf : Result → Option Fault
  | .next _ => none
  | .fault f => some f
  | .refused _ => none

/-- One reading of the next state. -/
def see {α : Type} (f : State → α) (r : Result) : Option α := (after r).map f

/-- Reset, with another configuration. -/
def idleAt (c : ConfRegs) : State := { State.reset with conf := c }

/-- One row of width 1 and height 8 in a mode, one channel (V-S1's setting in LOW). -/
def page (m : Mode) : ConfRegs := { ConfRegs.reset with cfg := { Cfg.reset with mode := m }, width := 1, height := 8 }

/-- The same with four channels (V-D1, V-D2). -/
def page4 (m : Mode) : ConfRegs := { page m with cfg := { Cfg.reset with mode := m, nch := 4 } }

/-- A running page at a position. -/
def runAt (c : ConfRegs) (q : Seq) (ph : Phase) : State :=
  { State.reset with conf := c, busy := true, phase := ph, seq := q }

/-- A running page with an Emit of a unit outstanding, under number 0. -/
def sending (i : Instr) : State :=
  { runAt (page .low) .segCR .encode with port := .sink 0 (isRaw i) (wireBytes i) none, txn := 1 }

/-- The same with the sink's answer delivered. -/
def answeredWith (i : Instr) (k : Nat) : State :=
  { sending i with port := .sink 0 (isRaw i) (wireBytes i) (some k) }

/-- A running page with row 5 of BLACK requested for sub-row 5, and the source's answer next. -/
def reading (r : RowResponse) (sub : BitVec 3) : State :=
  { runAt (page .low) .asmNext .assemble with
    loop := { LoopVars.reset with s := sub }
    port := .source 0 5 0, txn := 1, inbox := [.source 0 r] }

/-- A page of a mode and width 2 at a position of its segment, with the given bytes of PBUF listed (V-T). -/
def segment (m : Mode) (q : Seq) (cells : List (Nat × Byte)) : State :=
  { runAt { page m with width := 2 } q .encode with
    pbuf := cells.foldl (fun p c => Memory.write c.1 c.2 p) [] }

/-! ### Well-formedness: an ill-formed term for each check, which it refuses -/

theorem test_wf_csrr_misaligned : wellFormed (.csrr 0x02) = false := by decide
theorem test_wf_csrw_misaligned : wellFormed (.csrw 0x21 0) = false := by decide
theorem test_wf_csrw_is_cmd : wellFormed (.csrw 0x04 0) = false := by decide
theorem test_wf_height_no_digit : wellFormed (.escT ⟨0x00, 0x36⟩) = false := by decide
theorem test_wf_height_other : wellFormed (.escT (dec2 17)) = false := by decide
theorem test_wf_data_no_digit : wellFormed (.escG ⟨0x30, 0x30, 0x30, 0x3A⟩ []) = false := by decide
theorem test_wf_data_empty : wellFormed (.escG (dec4 0) []) = false := by decide
theorem test_wf_data_long : wellFormed (.escG (dec4 1) [1, 2]) = false := by decide
theorem test_wf_data_above : wellFormed (.escG (dec4 9993) []) = false := by decide
theorem test_wf_data_stride : wellFormed (.escC (dec4 1) [1]) = false := by decide
theorem test_wf_sync_short : wellFormed (.escV (dec4 7)) = false := by decide
theorem test_wf_sync_long : wellFormed (.escU (dec4 9992)) = false := by decide
theorem test_wf_raw_empty : wellFormed (.raw []) = false := by decide
theorem test_wf_raw_long : wellFormed (.raw (List.replicate 17 0)) = false := by decide

/-! ### Decoding: a word of each row, written out from R141 to R157 -/

theorem test_decode_nop : decode (.bus ⟨true, 0x04, 0b11111111111111111111111111110000⟩) = .ok .nop := by decide
theorem test_decode_start : decode (.bus ⟨true, 0x04, 0b00000000000000000000000000000001⟩) = .ok .start := by decide
theorem test_decode_xpose : decode (.bus ⟨true, 0x04, 0b00000000000000000000000000010010⟩) = .ok .xpose := by decide
theorem test_decode_illegal3 : decode (.bus ⟨true, 0x04, 0b0011⟩) = .ok .illegal3 := by decide
theorem test_decode_illegal4to7 : decode (.bus ⟨true, 0x04, 0b0110⟩) = .ok (.illegal4to7 0b10) := by decide
theorem test_decode_illegal8toB : decode (.bus ⟨true, 0x04, 0b1011⟩) = .ok (.illegal8toB 0b11) := by decide
theorem test_decode_illegalCtoD : decode (.bus ⟨true, 0x04, 0b1101⟩) = .ok (.illegalCtoD 0b1) := by decide
theorem test_decode_illegalE : decode (.bus ⟨true, 0x04, 0b1110⟩) = .ok .illegalE := by decide
theorem test_decode_sreset : decode (.bus ⟨true, 0x04, 0b00011111⟩) = .ok .sreset := by decide
theorem test_decode_csrr : decode (.bus ⟨false, 0x04, 0⟩) = .ok (.csrr 0x04) := by decide
theorem test_decode_csrw : decode (.bus ⟨true, 0x24, 5⟩) = .ok (.csrw 0x24 5) := by decide
theorem test_decode_escBidi : decode (.wire false [0x1B, 0x3C]) = .ok .escBidi := by decide
theorem test_decode_escUni : decode (.wire false [0x1B, 0x3E]) = .ok .escUni := by decide
theorem test_decode_escA : decode (.wire false [0x1B, 0x41]) = .ok .escA := by decide
theorem test_decode_escB : decode (.wire false [0x1B, 0x42]) = .ok .escB := by decide
theorem test_decode_escE : decode (.wire false [0x1B, 0x45]) = .ok .escE := by decide
theorem test_decode_escK : decode (.wire false [0x1B, 0x4B, 0x32]) = .ok (.escK 2) := by decide
theorem test_decode_escT : decode (.wire false [0x1B, 0x54, 0x31, 0x36]) = .ok (.escT (dec2 16)) := by decide
theorem test_decode_escG : decode (.wire false [0x1B, 0x47, 0x30, 0x30, 0x30, 0x31, 0x81]) =
    .ok (.escG (dec4 1) [0x81]) := by decide
theorem test_decode_escV : decode (.wire false [0x1B, 0x56, 0x30, 0x30, 0x31, 0x32, 0x00]) = .ok (.escV (dec4 12)) := by
  decide
theorem test_decode_escC : decode (.wire false [0x1B, 0x43, 0x30, 0x30, 0x30, 0x31, 0x80, 0x00, 0x00]) =
    .ok (.escC (dec4 1) [0x80, 0x00, 0x00]) := by decide
theorem test_decode_escU : decode (.wire false [0x1B, 0x55, 0x30, 0x30, 0x31, 0x30, 0x00, 0x00, 0x00]) =
    .ok (.escU (dec4 10)) := by decide
theorem test_decode_cr : decode (.wire false [0x0D]) = .ok .cr := by decide
theorem test_decode_lf : decode (.wire false [0x0A]) = .ok .lf := by decide
theorem test_decode_ff : decode (.wire false [0x0C]) = .ok .ff := by decide
theorem test_decode_raw : decode (.wire true [0x1B, 0x4D]) = .ok (.raw [0x1B, 0x4D]) := by decide

/-- R160: the decoder refuses by name what is no unit. -/
theorem test_decode_refuses :
    decode (.wire false [0x1B]) = .error .truncated ∧ decode (.wire false [0x41]) = .error .badControl ∧
    decode (.wire false [0x1B, 0x5A]) = .error .badSelector ∧ decode (.wire false [0x1B, 0x4B, 0x34]) = .error .badDigit ∧
    decode (.wire false [0x1B, 0x56, 0x30, 0x30, 0x31, 0x32, 0x01]) = .error .badFill ∧
    decode (.wire false [0x0D, 0x0A]) = .error .trailing := by decide

/-- Table words of each format, with zero operand bytes where the table gives none. -/
theorem test_table_words :
    decodeTableWord 32 0x0 = some .nop ∧ decodeTableWord 32 0x4 = some (.illegal4to7 0) ∧
    decodeTableWord 16 0x1B54 = some (.escT ⟨0, 0⟩) ∧ decodeTableWord 16 0x1B47 = some (.escG ⟨0, 0, 0, 0⟩ []) ∧
    decodeTableWord 16 0x1B56 = some (.escV ⟨0, 0, 0, 0⟩) ∧ decodeTableWord 8 0x0C = some .ff ∧
    decodeTableWord 0 0 = none := by decide

/-- A placed word is the next instruction run: START on the reset configuration fails with CONFIG, SUB 2 (V-F1). -/
theorem test_placed_command :
    see (fun s => s.errRegs.infoWord) (step (State.reset.withFetchWord 32 0x1)) = some 0x00000021 := by decide

/-- A placed unit is the next instruction run: its bytes are sent. -/
theorem test_placed_unit :
    see (fun s => (s.out, s.prog.byteCnt)) (step (State.reset.withFetchWord 24 0x1B4B33)) =
      some ([0x1B, 0x4B, 0x33], 3) := by decide

/-! ### The host commands (V-C, V-F, V-I, V-R, V-X) -/

/-- V-C1: NOP changes nothing. -/
theorem test_nop : after (exec .nop (runAt (page .low) .segCR .encode)) =
    some { runAt (page .low) .segCR .encode with bus := .write false } := by decide

/-- V-R6: an accepted START leaves STATUS = 0x101. -/
theorem test_start_accepts : see statusWord (exec .start (idleAt (page .low))) = some 0x00000101 := by decide

/-- V-F12: ALLOC, SUB 2, 1056 bytes needed of 1000. -/
theorem test_start_alloc : see (fun s => (statusWord s, s.errRegs.infoWord, s.errRegs.expected, s.errRegs.actual))
    (exec .start { idleAt { page4 .lq with width := 11 } with params := ⟨1249, 1000, 0⟩ }) =
      some (0x4, 0x22, 1056, 1000) := by decide

/-- V-X8. -/
theorem test_xpose : see (fun s => (s.xout0, s.xout1))
    (exec .xpose { State.reset with xin0 := 0x78563412, xin1 := 0xF0DEBC9A }) = some (0x78665500, 0xF0CCAAFF) := by decide

/-- V-X1. -/
theorem test_xpose_one_bit : see (fun s => (s.xout0, s.xout1)) (exec .xpose { State.reset with xin0 := 0x80 }) =
    some (0, 0x01000000) := by decide

/-- V-C5. -/
theorem test_illegal3 : see statusWord (exec .illegal3 State.reset) = some 0x8 := by decide

/-- V-I4: CMD = 5 with IE = 8 raises IRQ. -/
theorem test_illegal5_irq :
    see (fun s => (statusWord s, s.irq)) (exec (decodeCmd 0x5) { State.reset with ie := EventBits.ofWord 0x8 }) =
      some (0x8, true) := by decide

theorem test_illegal9 : see statusWord (exec (.illegal8toB 1) State.reset) = some 0x8 := by decide
theorem test_illegalC : see statusWord (exec (.illegalCtoD 0) State.reset) = some 0x8 := by decide

/-- V-C6. -/
theorem test_illegalE : see statusWord (exec .illegalE State.reset) = some 0x8 := by decide

/-- V-R8: SRESET ends the page; CFG and IE stay, LH = 16. -/
theorem test_sreset :
    see (fun s => (statusWord s, s.prog, s.lh, s.conf.width, s.ie.done))
      (exec .sreset { runAt (page .low) .asmNext .assemble with
        port := .source 0 5 0, lh := 1, ie := EventBits.ofWord 0x2, prog := ⟨8, 1, 20, 16⟩ }) =
      some (0, Progress.clear, 16, 1, true) := by decide

/-! ### The register accesses -/

/-- V-R1: CFG reads 0x10 after reset. -/
theorem test_csrr_cfg : see (fun s => s.bus) (exec (.csrr 0x20) State.reset) = some (.read 0x10 false) := by decide

/-- V-R4: a misaligned read is answered 0 with a bus error. -/
theorem test_csrr_misaligned : see (fun s => s.bus) (exec (.csrr 0x02) State.reset) = some (.read 0 true) := by decide

/-- V-R3: CFG keeps its defined bits only. -/
theorem test_csrw_cfg :
    see (fun s => readReg s .cfg) (exec (.csrw 0x20 0xFFFFFFFF) State.reset) = some 0x0000F773 := by decide

/-- V-R7: a locked write sets WLOCK and keeps WIDTH. -/
theorem test_csrw_locked :
    see (fun s => (s.conf.width, s.flags.wlock)) (exec (.csrw 0x24 5) (runAt (page .low) .segCR .encode)) =
      some (1, true) := by decide

/-! ### The wire units (V-E, V-F17 to V-F19): accepted in full, or in part -/

/-- V-F17: the sink takes one byte of `1B 3C`. -/
theorem test_escBidi_short :
    see (fun s => (statusWord s, s.errRegs.infoWord, s.errRegs.expected, s.errRegs.actual, s.out))
      (exec .escBidi (answeredWith .escBidi 1)) = some (0x4, 0x4, 2, 1, [0x1B]) := by decide

theorem test_escUni : see (fun s => s.out) (exec .escUni (answeredWith .escUni 2)) = some [0x1B, 0x3E] := by decide
theorem test_escA : see (fun s => s.out) (exec .escA (answeredWith .escA 2)) = some [0x1B, 0x41] := by decide
theorem test_escB : see (fun s => s.out) (exec .escB (answeredWith .escB 2)) = some [0x1B, 0x42] := by decide

/-- V-F19: the sink takes none of the final `1B 45`. -/
theorem test_escE_short : see (fun s => (statusWord s, s.errRegs.expected, s.errRegs.actual, s.out))
    (exec .escE (answeredWith .escE 0)) = some (0x4, 2, 0, []) := by decide

theorem test_escK : see (fun s => s.out) (exec (.escK 3) (answeredWith (.escK 3) 3)) = some [0x1B, 0x4B, 0x33] := by decide

theorem test_escT : see (fun s => (s.lh, s.prog.byteCnt)) (exec (.escT (dec2 15)) (answeredWith (.escT (dec2 15)) 4)) =
    some (15, 4) := by decide

/-- R321: a short-written `ESC 'T'` keeps LH. -/
theorem test_escT_short : see (fun s => (s.lh, s.prog.byteCnt))
    (exec (.escT (dec2 15)) (answeredWith (.escT (dec2 15)) 3)) = some (16, 3) := by decide

/-- V-F18's unit: three bytes of the 14 taken. -/
theorem test_escG_short :
    see (fun s => (s.errRegs.expected, s.errRegs.actual, s.out))
      (exec (.escG (dec4 8) (List.replicate 8 0xFF)) (answeredWith (.escG (dec4 8) (List.replicate 8 0xFF)) 3)) =
      some (14, 3, [0x1B, 0x47, 0x30]) := by decide

theorem test_escV : see (fun s => s.out) (exec (.escV (dec4 12)) (answeredWith (.escV (dec4 12)) 7)) =
    some [0x1B, 0x56, 0x30, 0x30, 0x31, 0x32, 0x00] := by decide
theorem test_escC : see (fun s => s.out) (exec (.escC (dec4 1) [0x80, 0, 0]) (answeredWith (.escC (dec4 1) [0x80, 0, 0]) 9)) =
    some [0x1B, 0x43, 0x30, 0x30, 0x30, 0x31, 0x80, 0x00, 0x00] := by decide
theorem test_escU : see (fun s => s.out) (exec (.escU (dec4 10)) (answeredWith (.escU (dec4 10)) 9)) =
    some [0x1B, 0x55, 0x30, 0x30, 0x31, 0x30, 0x00, 0x00, 0x00] := by decide
theorem test_cr : see (fun s => (s.out, s.prog.adv144)) (exec .cr (answeredWith .cr 1)) = some ([0x0D], 0) := by decide
theorem test_lf : see (fun s => (s.out, s.prog.adv144)) (exec .lf (answeredWith .lf 1)) = some ([0x0A], 16) := by decide
theorem test_ff : see (fun s => (s.out, s.prog.adv144)) (exec .ff (answeredWith .ff 1)) = some ([0x0C], 0) := by decide

/-- R321: a RAW unit that looks like a line feed moves no paper. -/
theorem test_raw : see (fun s => (s.out, s.prog.adv144)) (exec (.raw [0x0A]) (answeredWith (.raw [0x0A]) 1)) =
    some ([0x0A], 0) := by decide

/-- I8: a count above the unit's length is a fault. -/
theorem test_overcount : faultOf (exec .cr (answeredWith .cr 2)) = some .sinkOvercount := by decide

/-! ### The blocks -/

/-- V-X5 and V-X7. -/
theorem test_transpose :
    (transpose8 (blockOfWords 0x78563412 0xF0DEBC9A)).bytes = [0x00, 0x55, 0x66, 0x78, 0xFF, 0xAA, 0xCC, 0xF0] ∧
    (transpose8 fun b => blockOfWords 0x78563412 0xF0DEBC9A (7 - b)).bytes =
      [0x00, 0xAA, 0x66, 0x1E, 0xFF, 0x55, 0x33, 0x0F] := by decide

/-- V-A1: row r = [1 << r], stored in BBUF row 7 - r. -/
theorem test_band_low :
    (transposeAndScatter { idleAt (page .low) with
      params := ⟨1, 8, 0⟩, bbuf := Memory.writeRange 0 [0x80, 0x40, 0x20, 0x10, 0x08, 0x04, 0x02, 0x01] [] }).pbuf.readRange 0 8 =
      [0x80, 0x40, 0x20, 0x10, 0x08, 0x04, 0x02, 0x01] := by decide

/-- V-A4: row 23 of an LQ band lands in PBUF[2]. -/
theorem test_band_lq :
    (transposeAndScatter { idleAt (page .lq) with
      params := ⟨1, 24, 0⟩, bbuf := [(0, 0x01)], loop := { LoopVars.reset with p := 2 } }).pbuf = [(2, 0x01)] := by decide

/-- R251 on V-A's read orders: HIGH pass 1 takes the odd rows, LQ pass 1 the rows from 8. -/
theorem test_row_offsets : (List.range 8).map (fun s => rowOffset .high s 1) = [1, 3, 5, 7, 9, 11, 13, 15] ∧
    (List.range 8).map (fun s => rowOffset .lq s 1) = [8, 9, 10, 11, 12, 13, 14, 15] := by decide

/-- V-T3 and V-T4: column 7 needs no position-sync, column 8 does. -/
theorem test_sync_threshold :
    seqAction (segment .low .segSync [(7, 0x81)]) = .go (atSeq .segData (segment .low .segSync [(7, 0x81)])) ∧
    seqAction (segment .low .segSync [(8, 0x81)]) =
      .emit (.escV (dec4 8)) (atSeq .segData (segment .low .segSync [(8, 0x81)])) := by decide

/-- V-T7: the interior zero run is kept. -/
theorem test_data_unit :
    seqAction (segment .low .segData [(8, 0x81), (12, 0x81)]) =
      .emit (.escG (dec4 5) [0x81, 0, 0, 0, 0x81]) (atSeq .segCR (segment .low .segData [(8, 0x81), (12, 0x81)])) := by decide

/-- V-S3: the LQ pixel at column 10. -/
theorem test_data_unit_lq :
    seqAction (segment .lq .segData [(30, 0x80)]) =
      .emit (.escC (dec4 1) [0x80, 0, 0]) (atSeq .segCR (segment .lq .segData [(30, 0x80)])) := by decide

/-- V-F14: row 5 of BLACK fails. -/
theorem test_source_fail :
    see (fun s => (statusWord s, s.errRegs.infoWord, s.errRegs.row)) (step (reading .fail 5)) = some (0x4, 0x3, 5) := by decide

/-- R213, I5: a response to an abandoned transaction is ignored. -/
theorem test_late_response :
    see (fun s => (s.bbuf, s.port)) (step { reading (.row [0xFF]) 5 with port := .source 1 0 0 }) =
      some ([], .source 1 0 0) := by decide

/-- I7: a row of two bytes for W = 1 is a fault. -/
theorem test_row_length : faultOf (step (reading (.row [1, 2]) 5)) = some .rowLength := by decide

/-- V-D7: with H = 0 the page's third move is the soft eject's `ESC 'T' 16`. -/
theorem test_no_band :
    see (fun s => (s.port, s.phase)) (step (runAt { page .low with height := 0 } .initPitch .init)) =
      some (.sink 0 false [0x1B, 0x54, 0x31, 0x36] none, .finish) := by decide

/-- V-D13: PAGELEN = 20 with ADV144 = 16 sends one line feed. -/
theorem test_soft_eject :
    see (fun s => (s.port, s.loop.nlf))
      (step { runAt { page .low with pageLen := 20 } .softCount .finish with prog := ⟨8, 1, 8, 16⟩ }) =
      some (.sink 0 false [0x0A] none, 0) := by decide

/-! ### Witnesses: the hypotheses of the statements can be met -/

/-- Well-formed terms of every check, at the ends of their ranges. -/
theorem wit_wellFormed :
    [Instr.nop, .csrr 0x00, .csrr 0xFC, .csrw 0x00 0, .csrw 0xFC 1, .escT (dec2 1), .escT (dec2 15), .escT (dec2 16),
      .escG (dec4 1) [0x81], .escC (dec4 1) [0x80, 0, 0], .escV (dec4 8), .escV (dec4 9991), .escU (dec4 8),
      .escU (dec4 9991), .raw [0], .raw (List.replicate 16 0)].all wellFormed = true := by decide

/-- The longest data unit, 9992 columns (R281). -/
theorem wit_longest_data : WellFormed (.escG (dec4 9992) (List.replicate 9992 0)) :=
  ⟨by decide, by decide, by decide, by rw [List.length_replicate]; decide⟩

theorem wit_DecodeOfEncodeIsIdentity : WellFormed (.escC (dec4 1) [0x80, 0, 0]) := by
  rw [← wellFormed_iff]; decide

theorem wit_ReaderFindsTheEndOfEachUnit :
    [Instr.cr, .escK 3, .escT (dec2 15), .escV (dec4 8), .escU (dec4 9991), .escG (dec4 1) [1], .escC (dec4 1) [1, 2, 3],
      .escE].all (fun i => wellFormed i && isUnit i && !isRaw i) = true := by decide

theorem wit_CmdWordDecodesByItsOpAlone :
    [(0xFFFFFFF0#32, 0), (0x1#32, 1), (0x12#32, 2), (0x3#32, 3), (0x4#32, 4), (0x7#32, 7), (0x8#32, 8), (0xB#32, 11),
      (0xC#32, 12), (0xD#32, 13), (0xE#32, 14), (0x1F#32, 15)].all (fun p => p.2 == p.1.toNat % 16) = true := by decide

theorem wit_DecimalFieldsAreAsciiDigits : (0 ≤ 9999 ∧ 9999 ≤ 9999) ∧ (0 ≤ 99 ∧ 99 ≤ 99) := by decide

theorem wit_ReadAnswersTheRegisterAndChangesNothing :
    [0x00#8, 0x04, 0x08, 0x0C, 0x10, 0x34, 0x40, 0x44, 0x48, 0x4C, 0x50, 0x54, 0x58, 0x5C, 0x60, 0x64, 0x68, 0x6C, 0x70,
      0x80, 0x8C, 0x90, 0xA4].all (fun o => o.toNat % 4 == 0) = true ∧
    [0x38#8, 0x3C, 0x74, 0x7C, 0xA8, 0xFC].all (fun o =>
      o.toNat % 4 == 0 && decide (o ∈ [0x38#8, 0x3C, 0x74, 0x78, 0x7C] ∨ 0xA8 ≤ o.toNat)) = true := by decide

/-- R59, R60, R62 on a state whose pitch and quirk registers all differ: no two of the offsets answer one another's. -/
theorem test_pitch_and_quirk_offsets :
    let c := { page .low with
      pitchDat := ⟨0xA0, 0xA1, 0xA2, 0xA3⟩, pitchLen := ⟨1, 2, 3, 4⟩, quirkDat := ⟨0xB0, 0xB1, 0xB2, 0xB3⟩ }
    let s := { State.reset with conf := c }
    [(0x40#8, 0xA0#32), (0x44, 1), (0x48, 0xA1), (0x4C, 2), (0x50, 0xA2), (0x54, 3), (0x58, 0xA3), (0x5C, 4),
      (0x64, 0xB0), (0x68, 0xB1), (0x6C, 0xB2), (0x70, 0xB3)].all (fun p => readReg s (Reg.at p.1) == p.2) = true := by
  decide

theorem wit_MisalignedAccessGetsBusError : (0x01#8).toNat % 4 ≠ 0 ∧ (0xFF#8).toNat % 4 ≠ 0 := by decide

theorem wit_WriteThenReadGivesTheDefinedBits :
    ((State.reset.busy = false ∨ 0x20#8 ∈ [0x0C#8, 0x80, 0x84]) ∧
      (0x20#8, 0xF773#32) ∈ [(0x0C#8, 0x1E#32), (0x20, 0xF773), (0x24, 0xFFFF)]) ∧
    (((runAt (page .low) .segCR .encode).busy = false ∨ 0x80#8 ∈ [0x0C#8, 0x80, 0x84]) ∧
      (0x80#8, 0xFFFFFFFF#32) ∈ [(0x70#8, 0xFFFFFFFF#32), (0x80, 0xFFFFFFFF), (0x84, 0xFFFFFFFF)]) := by decide

theorem wit_LockedWriteSetsWlock :
    (0x20#8) ∈ [0x20#8, 0x70] ∧ (runAt (page .low) .segCR .encode).busy = true ∧ State.reset.busy = false := by decide

theorem wit_ReservedAndReadOnlyIgnoreWrites :
    ((0x38#8).toNat % 4 = 0 ∧ 0x38#8 ∈ [0x38#8, 0x3C, 0x74, 0x78, 0x7C]) ∧
    ((0xA8#8).toNat % 4 = 0 ∧ 0xA8 ≤ (0xA8#8).toNat) ∧ ((0xFC#8).toNat % 4 = 0 ∧ 0xA8 ≤ (0xFC#8).toNat) ∧
    0xA4#8 ∈ [0x00#8, 0xA0, 0xA4] := by decide

theorem wit_NopChangesNothing : (0xFFFFFFF0#32).toNat % 16 = 0 ∧ (0x0#32).toNat % 16 = 0 := by decide

theorem wit_IllegalOpsSetCmdErrOnly :
    Instr.illegalE ∈ [Instr.illegal3, .illegal4to7 0, .illegal8toB 0, .illegalCtoD 0, .illegalE] ∧
    (3 ≤ (0x3#32).toNat % 16 ∧ (0xFE#32).toNat % 16 ≤ 14) ∧ ¬ (3 ≤ (0x2#32).toNat % 16) ∧ ¬ ((0xF#32).toNat % 16 ≤ 14) := by
  decide

/-- The hypotheses of the START statement at the reset configuration. -/
theorem wit_StartChecksThenBeginsAPage :
    State.reset.busy = false ∧ 1 = State.reset.conf.cfg.nch.toNat ∧ 0 = State.reset.conf.width.toNat ∧
    1 = (match State.reset.conf.cfg.mode with | .low => 1 | .med => 1 | .high => 2 | .lq => 3) ∧
    0 = (match State.reset.conf.cfg.mode with | .low => 0 | .med => 1 | .high => 2 | .lq => 3) ∧
    0 = (match State.reset.conf.cfg.mode with
      | .low => State.reset.conf.pitchLen.r0 | .med => State.reset.conf.pitchLen.r1
      | .high => State.reset.conf.pitchLen.r2 | .lq => State.reset.conf.pitchLen.r3).toNat ∧ 0 = 1 * 8 * 1 * 0 := by
  decide

/-- Each outcome of START is met (V-F1, V-F2, V-F5, V-F7, V-F9, V-F11, V-F12 above, V-R6 above). -/
theorem wit_StartOutcomes :
    see (fun s => s.errRegs.infoWord) (exec .start (idleAt { page .low with cfg := { Cfg.reset with nch := 2 } })) =
      some 0x11 ∧
    see (fun s => s.errRegs.infoWord) (exec .start (idleAt { page .low with width := 1250 })) = some 0x21 ∧
    see (fun s => s.errRegs.infoWord) (exec .start (idleAt { page4 .low with chOrder := 0 })) = some 0x31 ∧
    see (fun s => s.errRegs.infoWord)
      (exec .start (idleAt { page .low with pitchLen := ⟨5, 0, 0, 0⟩ })) = some 0x41 ∧
    see (fun s => s.errRegs.infoWord)
      (exec .start (idleAt { page .low with cfg := { Cfg.reset with ejff := 1 }, quirkLen := 17 })) = some 0x51 ∧
    see (fun s => (s.errRegs.infoWord, s.errRegs.expected, s.errRegs.actual))
      (exec .start { idleAt { page .low with width := 101 } with params := ⟨100, 119904, 0⟩ }) = some (0x12, 808, 800) := by
  decide

theorem wit_StartAndXposeRefusedWhileBusy : (runAt (page .low) .segCR .encode).busy = true := by decide

theorem wit_XposeTransposesXinIntoXout : State.reset.busy = false := by decide

theorem wit_HostAccessKeepsThePage : (runAt (page .low) .segCR .encode).busy = true ∧
    decodeBus ⟨true, 0x04, 1⟩ ≠ .sreset := by decide

theorem wit_PageOutputIgnoresHostRegisters :
    (runAt (page .low) .segCR .encode).pageView =
      State.pageView { runAt (page .low) .segCR .encode with xin0 := 1, ie := EventBits.ofWord 0x2 } ∧
    ∀ a, Event.sequencer ≠ .host a := ⟨by decide, by simp⟩

theorem wit_UnitIssuesItsRequest : isUnit .cr = true ∧ State.reset.port = .idle := by decide

theorem wit_AcceptedUnitIsCountedAndSent :
    isUnit .ff = true ∧ Instr.ff ≠ .lf ∧ (∀ f, Instr.ff ≠ .escT f) ∧
    (answeredWith .ff 1).port = .sink 0 (isRaw .ff) (wireBytes .ff) (some (wireBytes .ff).length) :=
  ⟨by decide, by decide, by simp, by decide⟩

theorem wit_AcceptedLineHeightSetsLh :
    (answeredWith (.escT (dec2 99)) 4).port = .sink 0 false [0x1B, 0x54, 0x39, 0x39] (some 4) := by decide

theorem wit_AcceptedLineFeedAddsLh : (answeredWith .lf 1).port = .sink 0 false [0x0A] (some 1) := by decide

theorem wit_ShortWriteEndsThePage : isUnit (.raw [1, 2]) = true ∧ 1 < (wireBytes (.raw [1, 2])).length ∧
    (answeredWith (.raw [1, 2]) 1).port = .sink 0 (isRaw (.raw [1, 2])) (wireBytes (.raw [1, 2])) (some 1) := by decide

theorem wit_RowOffsetsCoverTheBandOnce : 23 < 8 * Mode.lq.passes ∧ 2 < Mode.lq.passes ∧ 0 < 8 * Mode.low.passes := by
  decide

/-- Sub-rows 0 and 7, a Row and an EndOfPage. -/
theorem wit_RowIsStoredInTheReversedSlot :
    [(RowResponse.row [0xFF], 0#3, [0xFF#8]), (.row [0xFF], 7, [0xFF]), (.endOfPage, 0, [0]), (.endOfPage, 7, [0])].all
      (fun (r, sub, d) =>
        let s := reading r sub
        s.port == .source 0 5 0 && s.inbox == [.source 0 r] && s.bbuf.wf && startCheck s.params s.conf == none &&
          (r == .row d || (r == .endOfPage && d == List.replicate s.conf.width.toNat 0)) &&
          d.length == s.conf.width.toNat) = true := by decide

theorem wit_SourceFailRaisesSource :
    (reading .fail 5).port = .source 0 5 0 ∧ (reading .fail 5).inbox = [.source 0 .fail] := by decide

/-- The place function of each mode, for slot 0, at the last pass of the mode. -/
theorem wit_PassIsTransposedAndScattered :
    let s := fun (m : Mode) (p : BitVec 2) => { idleAt (page m) with loop := { LoopVars.reset with p := p } }
    (∀ m p, (s m p).tbuf.wf = true ∧ (s m p).pbuf.wf = true ∧
      0 = (s m p).loop.ci.toNat * (8 * (s m p).conf.cfg.mode.passes * (s m p).conf.width.toNat)) ∧
    (∀ i : Nat, scatterPlace .low 1 0 0 i = 0 + i ∧ scatterPlace .med 1 0 0 i = 0 + i ∧
      scatterPlace .high 1 0 1 i = 0 + (s .high 1).loop.p.toNat * (8 * (s .high 1).conf.width.toNat) + i ∧
      scatterPlace .lq 1 0 2 i = 0 + 3 * i + (s .lq 2).loop.p.toNat) :=
  ⟨fun m p => ⟨rfl, rfl, by simp [idleAt, State.reset, State.resetWith, LoopVars.reset]⟩, fun _ => ⟨rfl, rfl, rfl, rfl⟩⟩

theorem wit_PassesWriteTheWholeRegion : 2 < Mode.lq.passes ∧ 7 < 8 * 1 ∧ 23 < 0 + 8 * Mode.lq.passes * 1 := by decide

theorem wit_TrimFindsFirstAndLastGroups (g : Nat) :
    (∀ k < 1, Memory.read [(3, 1)] (0 + 1 * g + k) = 0) ↔ ∀ k < 1, Memory.read [(3, 1)] (0 + 1 * g + k) = 0 := Iff.rfl

theorem wit_trim_bounds : trimBounds [(3, 1)] 0 1 8 = some (3, 4) ∧ trimBounds [] 0 1 8 = none := by decide

/-- An empty segment, a leading run of 7 columns, and one of 8, in LOW and in LQ. -/
theorem wit_SyncIsSentAboveSevenColumns :
    [(segment .low .segSync [], none), (segment .low .segSync [(7, 1)], some (7, 8)),
      (segment .low .segSync [(8, 1)], some (8, 9)), (segment .lq .segSync [(24, 1)], some (8, 9))].all
      (fun (s, b) => s.seq == .segSync && loopInRange s && currentBounds s == b) = true := by decide

/-- A leading run of 7 columns (start 0) and one of 8 (start 8), in LOW and in LQ. -/
theorem wit_DataUnitCarriesTheColumns :
    [(segment .low .segData [(7, 1)], 7, 8, 0, 1), (segment .low .segData [(8, 1)], 8, 9, 8, 1),
      (segment .lq .segData [(21, 1)], 7, 8, 0, 3), (segment .lq .segData [(26, 1)], 8, 9, 8, 3)].all
      (fun (s, blk, fin, start, stride) =>
        s.seq == .segData && loopInRange s && currentBounds s == some (blk, fin) &&
          start == (if 8 ≤ blk then blk else 0) && stride == (if s.conf.cfg.mode = .lq then 3 else 1) &&
          s.loop.ci.toNat * (8 * s.conf.cfg.mode.passes * s.conf.width.toNat) +
            s.loop.h.toNat * (8 * s.conf.width.toNat) == 0) = true := by decide

theorem wit_TrimmedSegmentRebuildsTheBand :
    currentBounds (segment .lq .segData [(24, 1)]) = some (8, 9) ∧
    15 < (segment .lq .segData [(24, 1)]).conf.columns ∧ 2 < (segment .lq .segData [(24, 1)]).conf.stride := by decide

/-- A running page at its first position is consistent. -/
theorem wit_running_inv : (runAt (page .low) .initDir .init).Inv where
  bbufWf := rfl
  tbufWf := rfl
  pbufWf := rfl
  stopped := by decide
  running := by decide
  oneEnd := by decide
  config := by decide
  loop := fun _ => ⟨by decide, by decide, by decide, by decide, by decide, by decide, by decide, by decide⟩
  port := trivial

theorem wit_IssuedUnitsAreWellFormed :
    (runAt (page .low) .initDir .init).Inv ∧ (runAt (page .low) .initDir .init).busy = true ∧
    seqWork (runAt (page .low) .initDir .init) = .emit .escBidi (runAt (page .low) .initHeight .init) :=
  ⟨wit_running_inv, rfl, by decide⟩

theorem wit_InitSendsDirectionHeightPitch :
    (runAt (page .low) .initDir .init).seq = .initDir ∧ (runAt (page .low) .initHeight .init).seq = .initHeight ∧
    [1#3, 4].all (fun n =>
      let s := runAt { page .low with pitchLen := ⟨n, 0, 0, 0⟩ } .initPitch .init
      s.seq == .initPitch && decide (0 < s.conf.activePitchLen)) = true := by decide

/-- Each of the four clauses at the slots where they meet: the last slot, and the last but one. -/
theorem wit_CadenceAfterCarriageReturn :
    let s := fun (c : ConfRegs) (ci : BitVec 2) (h : BitVec 1) =>
      { runAt c .afterCR .encode with loop := { LoopVars.reset with ci := ci, h := h } }
    let hcp := { page4 .high with cfg := { Cfg.reset with mode := .high, nch := 4, hcp := true } }
    (∀ c ci h, (s c ci h).seq = .afterCR) ∧
    ((s (page4 .low) 3 0).conf.cfg.mode ≠ .high ∧
      ¬ (s (page4 .low) 3 0).loop.ci.toNat + 1 < (s (page4 .low) 3 0).conf.cfg.nch.toNat) ∧
    ((s hcp 0 0).conf.cfg.mode = .high ∧ (s hcp 0 0).loop.h = 0 ∧ (s hcp 0 0).conf.cfg.nch = 4 ∧
      (s hcp 0 0).conf.cfg.hcp = true) ∧
    ((s (page4 .high) 3 0).conf.cfg.mode = .high ∧ (s (page4 .high) 3 0).loop.h = 0 ∧
      ¬ (s (page4 .high) 3 0).loop.ci.toNat + 1 < (s (page4 .high) 3 0).conf.cfg.nch.toNat) ∧
    ((s (page4 .high) 3 1).conf.cfg.mode = .high ∧ (s (page4 .high) 3 1).loop.h ≠ 0 ∧
      ¬ (s (page4 .high) 3 1).loop.ci.toNat + 1 < (s (page4 .high) 3 1).conf.cfg.nch.toNat) ∧
    ((s (page4 .low) 2 0).conf.cfg.nch = 4 ∧ (s (page4 .low) 2 0).loop.ci.toNat + 1 < 4 ∧
      ¬ ((s (page4 .low) 2 0).conf.cfg.mode = .high ∧ (s (page4 .low) 2 0).loop.h = 0 ∧
        (s (page4 .low) 2 0).conf.cfg.hcp = true)) :=
  ⟨fun _ _ _ => rfl, by decide, by decide, by decide, by decide, by decide⟩

theorem wit_BandEndAdvancesTheCounters : (runAt (page .low) .bandEnd .encode).seq = .bandEnd := by decide

/-- PAGELEN = 1584 reached, 1/144 inch short of it, and 65535/144 inch short (PAGELEN = 65535, ADV144 = 0: 4096 line
feeds, log 8); then `softHeight`, and `softLF` at 1, 4096 and 0 line feeds left. -/
theorem wit_SoftEjectCoversTheRestOfThePage :
    let s := fun a : Word => { runAt (page .low) .softCount .finish with prog := ⟨8, 1, 8, a⟩ }
    let far := runAt { page .low with pageLen := 65535 } .softCount .finish
    let lf := fun n : BitVec 13 => { runAt (page .low) .softLF .finish with loop := { State.reset.loop with nlf := n } }
    ((s 1584).seq = .softCount ∧ (s 1584).conf.pageLen.toNat ≤ (s 1584).prog.adv144.toNat) ∧
    ((s 1583).seq = .softCount ∧ (s 1583).prog.adv144.toNat < (s 1583).conf.pageLen.toNat) ∧
    (far.seq = .softCount ∧ far.prog.adv144.toNat < far.conf.pageLen.toNat ∧ softLineFeeds far = 4096) ∧
    (runAt (page .low) .softHeight .finish).seq = .softHeight ∧
    ((lf 1).seq = .softLF ∧ (lf 1).loop.nlf ≠ 0) ∧ ((lf 4096).seq = .softLF ∧ (lf 4096).loop.nlf ≠ 0) ∧
    ((lf 0).seq = .softLF ∧ (lf 0).loop.nlf = 0) := by decide

theorem wit_FormfeedEjectAndResetSequence :
    [1#5, 16].all (fun n =>
      let s := runAt { page .low with quirkLen := n } .ffQuirk .finish
      s.seq == .ffQuirk && decide (0 < s.conf.quirkLen.toNat)) = true ∧
    (runAt (page .low) .ffQuirk .finish).conf.quirkLen = 0 ∧ (runAt (page .low) .ffFF .finish).seq = .ffFF ∧
    (runAt (page .low) .resetDir .finish).seq = .resetDir := by decide

theorem wit_PageDoneSetsDone :
    let s := { runAt (page .low) .pageDone .finish with inbox := [.sequencer] }
    s.busy = true ∧ s.port = .idle ∧ s.seq = .pageDone ∧ startCheck s.params s.conf = none ∧
      s.inbox = .sequencer :: [] := by decide

theorem wit_StepRunsTheHostAccess :
    State.inbox { State.reset with inbox := [.host ⟨true, 0x04, 1⟩] } = .host ⟨true, 0x04, 1⟩ :: [] ∧
    decode (.bus ⟨true, 0x04, 1⟩) = .ok .start := by decide

theorem wit_StepRunsTheAnsweredUnit :
    let s := { sending .lf with inbox := [.sink 0 1] }
    s.port = .sink 0 false [0x0A] none ∧ s.inbox = .sink 0 1 :: [] ∧ decode (.wire false [0x0A]) = .ok .lf := by decide

/-- An event that comes to a unit, and one that comes to a SourceRead. -/
theorem wit_StepRunsTheSequencersUnit :
    let s := { runAt (page .low) .asmBegin .assemble with inbox := [.sequencer] }
    let u := { runAt (page .low) .segCR .encode with inbox := [.sequencer] }
    (s.inbox = .sequencer :: [] ∧ s.busy = true ∧ s.port = .idle ∧ startCheck s.params s.conf = none ∧
      seqWork { s with inbox := [] } =
        .read 0 0 { runAt (page .low) .asmNext .assemble with loop := LoopVars.reset }) ∧
    (u.inbox = .sequencer :: [] ∧ u.busy = true ∧ u.port = .idle ∧ startCheck u.params u.conf = none ∧
      seqWork { u with inbox := [] } = .emit .cr (runAt (page .low) .afterCR .encode)) := by decide

theorem wit_LateResponseIsIgnored :
    let s := { runAt (page .low) .asmNext .assemble with port := .source 1 5 0, inbox := [.source 0 .fail] }
    let u := { sending .cr with port := .sink 1 false [0x0D] none, inbox := [.sink 0 1] }
    ((∀ row ch, s.port ≠ .source 0 row ch) ∧ (∀ raw bytes answer, s.port ≠ .sink 0 raw bytes answer) ∧
      s.inbox = .source 0 .fail :: []) ∧
    ((∀ row ch, u.port ≠ .source 0 row ch) ∧ (∀ raw bytes answer, u.port ≠ .sink 0 raw bytes answer) ∧
      u.inbox = .sink 0 1 :: []) :=
  ⟨⟨by simp, by simp, rfl⟩, by simp, by simp, rfl⟩

theorem wit_HardResetGivesResetValues :
    State.inbox { sending .cr with inbox := [.hardReset] } = .hardReset :: [] := by decide

theorem wit_ConfigurationIsFixedWhileBusy :
    (runAt (page .low) .initDir .init).busy = true ∧ (after (step (runAt (page .low) .initDir .init))).isSome = true ∧
    (∀ rest, (runAt (page .low) .initDir .init).inbox ≠ .hardReset :: rest) :=
  ⟨rfl, by decide, by simp [runAt, State.reset, State.resetWith]⟩

theorem wit_OutputStreamIsAppendOnly :
    see (fun s => s.out) (step { sending .cr with inbox := [.sink 0 1] }) = some [0x0D] := by decide

/-- Both events that the statement about DONE and ERR names set them. -/
theorem wit_DoneAndErrAreSetOnlyByTheirEvents :
    see (fun s => s.flags.done) (step (runAt (page .low) .pageDone .finish)) = some true ∧
    see (fun s => s.flags.err) (step (reading .fail 5)) = some true ∧
    see (fun s => s.flags.err) (step { sending .cr with inbox := [.sink 0 0] }) = some true ∧
    see (fun s => s.flags.err) (step { State.reset with inbox := [.host ⟨true, 0x04, 1⟩] }) = some true := by decide

theorem wit_EveryStepKeepsTheStateConsistent :
    (runAt (page .low) .initDir .init).Inv ∧ (after (step (runAt (page .low) .initDir .init))).isSome = true :=
  ⟨wit_running_inv, by decide⟩

theorem wit_StepNeverStopsUnderThePortContracts :
    (runAt (page .low) .initDir .init).Inv ∧ (runAt (page .low) .initDir .init).ContractKept :=
  ⟨wit_running_inv, trivial⟩

/-- At the contract's bounds: a row of exactly W bytes, and a count of exactly the unit's length. -/
theorem wit_contract_bounds :
    (reading (.row [0xFF]) 5).ContractKept ∧ State.ContractKept { sending .cr with inbox := [.sink 0 1] } :=
  ⟨fun _ => rfl, fun _ => Nat.le_refl _⟩

end Sys2Proof.Tests
end

/-! SUPPORT. The family of the machine's state: the registers, what a page keeps while it runs, and the invariant of
consistent states. -/

namespace Sys2Proof.Machine

/-! ### Register accesses: what each bus access is (R104, R200, R201) -/

theorem misaligned_eq_false {off : BitVec 8} (h : off.toNat % 4 = 0) : misaligned off = false := by
  have : off.extractLsb' 0 2 = 0 := BitVec.eq_of_toNat_eq (by simpa [BitVec.extractLsb'_toNat] using h)
  simp [misaligned, this]

theorem exec_csrr_aligned {off : BitVec 8} (h : misaligned off = false) (s : State) :
    exec (.csrr off) s = .next { s with bus := .read (readReg s (Reg.at off)) false } := by
  change execCsrr off s = _
  simp [execCsrr, h]

theorem exec_csrr_misaligned {off : BitVec 8} (h : misaligned off = true) (s : State) :
    exec (.csrr off) s = .next { s with bus := .read 0 true } := if_pos h

theorem exec_csrw_aligned {off : BitVec 8} (h : misaligned off = false) (v : Word) (s : State) :
    exec (.csrw off v) s = .next (ackWrite (writeReg (Reg.at off) v s)) := by
  change execCsrw off v s = _
  simp [execCsrw, h]

theorem exec_csrw_misaligned {off : BitVec 8} (h : misaligned off = true) (v : Word) (s : State) :
    exec (.csrw off v) s = .next { s with bus := .write true } := if_pos h

/-- A host instruction changes the bus response alone, or is an acknowledged register write: every CMD row is the write
of a word to CMD (R201, R202). -/
theorem exec_host_next {i : Instr} (hi : isUnit i = false) {s t : State} (h : exec i s = .next t) :
    (∃ b, t = { s with bus := b }) ∨ ∃ r v, t = ackWrite (writeReg r v s) := by
  cases i with
  | nop => cases h; exact .inr ⟨.cmd, 0x0, rfl⟩
  | start => cases h; exact .inr ⟨.cmd, 0x1, rfl⟩
  | xpose => cases h; exact .inr ⟨.cmd, 0x2, rfl⟩
  | illegal3 | illegal4to7 | illegal8toB | illegalCtoD | illegalE => cases h; exact .inr ⟨.cmd, 0x3, rfl⟩
  | sreset => cases h; exact .inr ⟨.cmd, 0xF, rfl⟩
  | csrr off =>
    cases hm : misaligned off with
    | false =>
      rw [exec_csrr_aligned hm] at h
      cases h
      exact .inl ⟨_, rfl⟩
    | true =>
      rw [exec_csrr_misaligned hm] at h
      cases h
      exact .inl ⟨_, rfl⟩
  | csrw off v =>
    cases hm : misaligned off with
    | false =>
      rw [exec_csrw_aligned hm] at h
      cases h
      exact .inr ⟨_, _, rfl⟩
    | true =>
      rw [exec_csrw_misaligned hm] at h
      cases h
      exact .inl ⟨_, rfl⟩
  | _ => cases hi

/-! ### The register map (R32, R71) -/

/-- Every offset with a register is aligned. -/
theorem regMap_aligned : ∀ p ∈ regMap, p.1 % 4 = 0 := by decide

theorem Reg.at_mem {off : BitVec 8} (h : Reg.at off ≠ .reserved) : (off.toNat, Reg.at off) ∈ regMap := by
  unfold Reg.at at h ⊢
  cases hl : regMap.lookup off.toNat with
  | none => simp [hl] at h
  | some r =>
    obtain ⟨l1, l2, hsplit, -⟩ := List.lookup_eq_some_iff.mp hl
    simp [hsplit]

/-- No register has two offsets. -/
theorem Reg.at_injective {off off' : BitVec 8} (h : Reg.at off ≠ .reserved) (he : Reg.at off' = Reg.at off) :
    off' = off := by
  have hnodup : (regMap.map Prod.snd).Nodup := by decide
  have hmem' := Reg.at_mem (off := off') (by rwa [he])
  have hpair := List.inj_on_of_nodup_map hnodup hmem' (Reg.at_mem h) he
  exact BitVec.eq_of_toNat_eq (congrArg Prod.fst hpair)

/-- An offset that is not in the table of R32 is reserved. -/
theorem Reg.at_eq_reserved {off : BitVec 8} (h : ∀ p ∈ regMap, off.toNat ≠ p.1) : Reg.at off = .reserved := by
  unfold Reg.at
  rw [List.lookup_eq_none_iff.mpr fun p hp => by simpa using h p hp]
  rfl

/-! ### Numbers of packed words -/

/-- A concatenation as a number: the low part, and the high part at its weight. -/
theorem toNat_append_eq {m n : Nat} (x : BitVec m) (y : BitVec n) : (x ++ y).toNat = x.toNat * 2 ^ n + y.toNat := by
  rw [BitVec.toNat_append, ← Nat.shiftLeft_add_eq_or_of_lt y.isLt, Nat.shiftLeft_eq]

theorem toNat_bit (b : Bool) : (bit b).toNat = b.toNat := by
  cases b <;> rfl

/-- STATUS as a number (R35). -/
theorem toNat_statusWord (s : State) : (statusWord s).toNat = 256 * s.phase.code.toNat + 16 * s.flags.wlock.toNat +
    8 * s.flags.cmdErr.toNat + 4 * s.flags.err.toNat + 2 * s.flags.done.toNat + s.busy.toNat := by
  unfold statusWord EventBits.word
  rw [BitVec.zeroExtend, BitVec.toNat_setWidth_of_le (by decide)]
  simp only [toNat_append_eq, toNat_bit, BitVec.toNat_ofNat]
  omega

/-! ### What a register keeps of a written word (R32) -/

/-- The defined bits of a register that can be written (R42, R47 to R63). -/
def Reg.mask : Reg → Word
  | .ie => 0x1E
  | .cfg => 0xF773
  | .width | .height | .pageLen => 0xFFFF
  | .chOrder | .kDigit => 0xFF
  | .pitchLen _ => 0x7
  | .quirkLen => 0x1F
  | _ => 0xFFFFFFFF

/-- The low bits of a word, read back as a word, are the word under their mask. -/
theorem zeroExtend_low {n : Nat} (v : Word) (h : n ≤ 32) :
    (v.extractLsb' 0 n).zeroExtend 32 = v &&& BitVec.ofNat 32 (2 ^ n - 1) := by
  apply BitVec.eq_of_toNat_eq
  have hle : 2 ^ n ≤ 2 ^ 32 := Nat.pow_le_pow_right (by decide) h
  rw [BitVec.zeroExtend, BitVec.toNat_setWidth_of_le h, BitVec.extractLsb'_toNat, BitVec.toNat_and, BitVec.toNat_ofNat,
    Nat.mod_eq_of_lt (a := 2 ^ n - 1) (by omega), Nat.and_two_pow_sub_one_eq_mod, Nat.shiftRight_zero]

theorem Mode.code_ofCode (b : BitVec 2) : (Mode.ofCode b).code = b := by
  revert b
  decide

theorem getLsbD_bit (b : Bool) (i : Nat) : (bit b).getLsbD i = (decide (i = 0) && b) := by
  cases b <;> simp [bit]

/-- CFG keeps its defined bits at their places (R47). -/
theorem word_ofWord (v : Word) : (Cfg.ofWord v).word = v &&& Reg.mask .cfg := by
  apply BitVec.eq_of_getLsbD_eq
  intro i hi
  simp only [Cfg.word, Cfg.ofWord, Mode.code_ofCode, Reg.mask, BitVec.getLsbD_and, BitVec.zeroExtend,
    BitVec.getLsbD_setWidth, BitVec.getLsbD_append, BitVec.getLsbD_extractLsb', getLsbD_bit, hi, decide_true,
    Bool.true_and]
  interval_cases i
  all_goals simp

/-- IE keeps its four enables (R42). -/
theorem EventBits.word_ofWord (v : Word) : ((EventBits.ofWord v).word false).zeroExtend 32 = v &&& Reg.mask .ie := by
  apply BitVec.eq_of_getLsbD_eq
  intro i hi
  simp only [EventBits.word, EventBits.ofWord, Reg.mask, BitVec.getLsbD_and, BitVec.zeroExtend,
    BitVec.getLsbD_setWidth, BitVec.getLsbD_append, getLsbD_bit, hi, decide_true, Bool.true_and]
  interval_cases i
  all_goals simp

theorem and_allOnes (v : Word) : v &&& 0xFFFFFFFF = v := BitVec.and_allOnes

/-- One of four registers after a write to one of them. -/
theorem Quad.get_set {α : Type} (q : Quad α) (i j : BitVec 2) (a : α) :
    (q.set i a).get j = if j = i then a else q.get j := by
  have cases4 (k : BitVec 2) : k = 0 ∨ k = 1 ∨ k = 2 ∨ k = 3 := by revert k; decide
  obtain rfl | rfl | rfl | rfl := cases4 i
  all_goals obtain rfl | rfl | rfl | rfl := cases4 j
  all_goals rfl

theorem Quad.get_set_self {α : Type} (q : Quad α) (i : BitVec 2) (a : α) : (q.set i a).get i = a := by
  rw [Quad.get_set, if_pos rfl]

/-! ### A register write, read back (R201) -/

theorem writeReg_rwl {r : Reg} (h : r.access = .rwl) (v : Word) (s : State) : writeReg r v s = writeLocked r v s := by
  simp [writeReg, h]

theorem writeReg_rw {r : Reg} (h : r.access = .rw) (v : Word) (s : State) : writeReg r v s = writeRw r v s := by
  simp [writeReg, h]

theorem writeReg_ignored {r : Reg} (h : r.access = .ro ∨ r.access = .reserved) (v : Word) (s : State) :
    writeReg r v s = s := by
  obtain h | h := h <;> simp [writeReg, h]

theorem writeLocked_busy {s : State} (h : s.busy = true) (r : Reg) (v : Word) :
    writeLocked r v s = { s with flags := { s.flags with wlock := true } } := by
  simp [writeLocked, h]

theorem writeLocked_unlocked {s : State} (h : s.busy = false) (r : Reg) (v : Word) :
    writeLocked r v s = { s with conf := writeConf r v s.conf } := by
  simp [writeLocked, h]

/-- A configuration register reads the defined bits of what was written. -/
theorem readReg_writeConf_self {r : Reg} (h : r.access = .rwl) (v : Word) (s : State) :
    readReg { s with conf := writeConf r v s.conf } r = v &&& r.mask := by
  cases r with
  | cfg => exact word_ofWord v
  | width | height | pageLen | chOrder | kDigit | quirkLen => exact zeroExtend_low v (by decide)
  | pitchDat m => exact (Quad.get_set_self _ _ _).trans (and_allOnes v).symm
  | quirkDat q => exact (Quad.get_set_self _ _ _).trans (and_allOnes v).symm
  | pitchLen m =>
    show ((s.conf.pitchLen.set m (v.extractLsb' 0 3)).get m).zeroExtend 32 = _
    rw [Quad.get_set_self]
    exact zeroExtend_low v (by decide)
  | _ => cases h

/-- Every other register reads as before. -/
theorem readReg_writeConf_ne {r r' : Reg} (hne : r' ≠ r) (v : Word) (s : State) :
    readReg { s with conf := writeConf r v s.conf } r' = readReg s r' := by
  cases r with
  | cfg | width | height | pageLen | chOrder | kDigit | quirkLen => cases r' <;> first | rfl | exact absurd rfl hne
  | pitchDat m =>
    cases r' with
    | pitchDat m' =>
      have hm : m' ≠ m := fun e => hne (e ▸ rfl)
      show (s.conf.pitchDat.set m v).get m' = _
      rw [Quad.get_set, if_neg hm]
      rfl
    | _ => rfl
  | pitchLen m =>
    cases r' with
    | pitchLen m' =>
      have hm : m' ≠ m := fun e => hne (e ▸ rfl)
      show ((s.conf.pitchLen.set m (v.extractLsb' 0 3)).get m').zeroExtend 32 = _
      rw [Quad.get_set, if_neg hm]
      rfl
    | _ => rfl
  | quirkDat q =>
    cases r' with
    | quirkDat q' =>
      have hq : q' ≠ q := fun e => hne (e ▸ rfl)
      show (s.conf.quirkDat.set q v).get q' = _
      rw [Quad.get_set, if_neg hq]
      rfl
    | _ => rfl
  | _ => rfl

theorem readReg_writeRw_self {r : Reg} (h : r.access = .rw) (v : Word) (s : State) :
    readReg (writeRw r v s) r = v &&& r.mask := by
  cases r with
  | ie => exact EventBits.word_ofWord v
  | xin0 | xin1 => exact (and_allOnes v).symm
  | _ => cases h

theorem readReg_writeRw_ne {r r' : Reg} (hne : r' ≠ r) (v : Word) (s : State) :
    readReg (writeRw r v s) r' = readReg s r' := by
  cases r with
  | ie | xin0 | xin1 => cases r' <;> first | rfl | exact absurd rfl hne
  | _ => rfl

/-- A read does not look at the bus response of the access before it. -/
theorem readReg_ackWrite (s : State) (r : Reg) : readReg (ackWrite s) r = readReg s r := by
  cases r <;> rfl

/-! ### The obligations about the register file -/

/-- Settles O6: the read by the STATUS word as a number, the write by the definition of write-one-to-clear. -/
theorem statusReadsAndClears : Obligations.StatusReadsAndClears := by
  refine ⟨fun s => ⟨statusWord s, exec_csrr_aligned rfl s, toNat_statusWord s⟩, fun s v => ?_, rfl⟩
  exact exec_csrw_aligned rfl v s

/-- The offsets of the RW registers, which no lock holds. -/
theorem unlocked_offsets : ∀ off ∈ ([0x0C, 0x80, 0x84] : List (BitVec 8)), (Reg.at off).access = .rw := by decide

/-- The offsets that the host may write, with their masks. -/
theorem writable_offsets : ∀ p ∈ ([(0x0C, 0x1E), (0x20, 0xF773), (0x24, 0xFFFF), (0x28, 0xFFFF), (0x2C, 0xFFFF),
      (0x30, 0xFF), (0x34, 0xFF), (0x40, 0xFFFFFFFF), (0x44, 0x7), (0x48, 0xFFFFFFFF), (0x4C, 0x7), (0x50, 0xFFFFFFFF),
      (0x54, 0x7), (0x58, 0xFFFFFFFF), (0x5C, 0x7), (0x60, 0x1F), (0x64, 0xFFFFFFFF), (0x68, 0xFFFFFFFF),
      (0x6C, 0xFFFFFFFF), (0x70, 0xFFFFFFFF), (0x80, 0xFFFFFFFF), (0x84, 0xFFFFFFFF)] : List (BitVec 8 × Word)),
    misaligned p.1 = false ∧ (Reg.at p.1).mask = p.2 ∧ ((Reg.at p.1).access = .rw ∨ (Reg.at p.1).access = .rwl) := by
  intro p hp
  fin_cases hp
  all_goals exact ⟨rfl, rfl, by decide⟩

/-- Settles O9: an RW-L register is written in the configuration, an RW register in IE or XIN; either reads back under
its mask, and no other offset names it. -/
theorem writeThenReadGivesTheDefinedBits : Obligations.WriteThenReadGivesTheDefinedBits := by
  intro s v off mask hlock hmem
  obtain ⟨hal, hmask, hacc⟩ := writable_offsets _ hmem
  have hres : Reg.at off ≠ .reserved := fun e => by simp [e, Reg.access] at hacc
  have hfree (hrwl : (Reg.at off).access = .rwl) : s.busy = false :=
    hlock.resolve_right fun hmem => by simp [unlocked_offsets off hmem] at hrwl
  refine ⟨_, exec_csrw_aligned hal v s, ?_, fun off' hne => ?_, ?_, rfl⟩
  all_goals obtain hrw | hrwl := hacc
  · rw [exec_csrr_aligned hal, readReg_ackWrite, writeReg_rw hrw, readReg_writeRw_self hrw, hmask]
  · rw [exec_csrr_aligned hal, readReg_ackWrite, writeReg_rwl hrwl, writeLocked_unlocked (hfree hrwl),
      readReg_writeConf_self hrwl, hmask]
  · rw [readReg_ackWrite, writeReg_rw hrw, readReg_writeRw_ne (fun e => hne (Reg.at_injective hres e))]
  · rw [readReg_ackWrite, writeReg_rwl hrwl, writeLocked_unlocked (hfree hrwl),
      readReg_writeConf_ne (fun e => hne (Reg.at_injective hres e))]
  · obtain ⟨e, x, y, hw⟩ := writeRw_spec (Reg.at off) v s
    rw [writeReg_rw hrw, hw]
    rfl
  · rw [writeReg_rwl hrwl, writeLocked_unlocked (hfree hrwl)]
    rfl

/-- The RW-L registers' offsets. -/
theorem locked_offsets : ∀ off ∈ ([0x20, 0x24, 0x28, 0x2C, 0x30, 0x34, 0x40, 0x44, 0x48, 0x4C, 0x50, 0x54, 0x58, 0x5C,
      0x60, 0x64, 0x68, 0x6C, 0x70] : List (BitVec 8)),
    misaligned off = false ∧ (Reg.at off).access = .rwl := by
  decide

/-- Settles O10: both sides of the lock of R72. -/
theorem lockedWriteSetsWlock : Obligations.LockedWriteSetsWlock := by
  intro s v off hmem
  obtain ⟨hal, hrwl⟩ := locked_offsets off hmem
  rw [exec_csrw_aligned hal, writeReg_rwl hrwl]
  refine ⟨fun hb => ?_, fun hb => ?_⟩
  · rw [writeLocked_busy hb]
    rfl
  · rw [writeLocked_unlocked hb]
    rfl

/-- The offsets of the read-only registers. -/
theorem readOnly_offsets : ∀ off ∈ ([0x00, 0x10, 0x14, 0x18, 0x1C, 0x88, 0x8C, 0x90, 0x94, 0x98, 0x9C, 0xA0,
      0xA4] : List (BitVec 8)), misaligned off = false ∧ (Reg.at off).access = .ro := by
  decide

/-- The reserved offsets of R71: the gaps of the table, and everything above its last register. -/
theorem at_reserved_offsets {off : BitVec 8}
    (h : off ∈ ([0x38, 0x3C, 0x74, 0x78, 0x7C] : List (BitVec 8)) ∨ 0xA8 ≤ off.toNat) : Reg.at off = .reserved := by
  obtain h | h := h
  · have hall : ∀ off ∈ ([0x38, 0x3C, 0x74, 0x78, 0x7C] : List (BitVec 8)), Reg.at off = .reserved := by decide
    exact hall off h
  · have hmax : ∀ p ∈ regMap, p.1 < 0xA8 := by decide
    exact Reg.at_eq_reserved fun p hp => Nat.ne_of_gt (Nat.lt_of_lt_of_le (hmax p hp) h)

/-- Settles O11: what has access type reserved or RO takes no write. -/
theorem reservedAndReadOnlyIgnoreWrites : Obligations.ReservedAndReadOnlyIgnoreWrites := by
  refine fun s v off => ⟨fun hal hres => ?_, fun hmem => ?_⟩
  · have hat := at_reserved_offsets hres
    have hal' := misaligned_eq_false hal
    rw [exec_csrr_aligned hal', exec_csrw_aligned hal', hat, writeReg_ignored (.inr rfl)]
    exact ⟨rfl, rfl⟩
  · obtain ⟨hal, hro⟩ := readOnly_offsets off hmem
    rw [exec_csrw_aligned hal, writeReg_ignored (.inl hro)]
    rfl

/-- Settles O54: each register of the reset state as it reads, and no event to take. -/
theorem resetLeavesTheStatedValues : Obligations.ResetLeavesTheStatedValues := by
  have hzero (m : BitVec 2) : (Quad.all (0 : Word)).get m = 0 ∧ (Quad.all (0 : BitVec 3)).get m = 0 := by
    revert m
    decide
  refine ⟨rfl, rfl, rfl, rfl, rfl, rfl, rfl, rfl, rfl, rfl, rfl, rfl, rfl, fun m => ⟨(hzero m).1, ?_⟩, rfl,
    fun q => (hzero q).1, rfl, rfl, rfl, rfl, rfl, rfl, rfl, rfl, rfl, rfl, rfl, rfl, rfl, rfl, rfl⟩
  exact congrArg (BitVec.zeroExtend 32) (hzero m).2

/-! ### What the work of a running page leaves unchanged -/

/-- From `s` to `t` the page that runs, if one does, stays the same: its parameters and configuration, BUSY, no new DONE
or ERR, canonical buffers, and no new transaction on the port. -/
structure SamePage (s t : State) : Prop where
  params : t.params = s.params := by rfl
  conf : t.conf = s.conf := by rfl
  busy : t.busy = s.busy := by rfl
  done : t.flags.done = true → s.flags.done = true := by exact id
  err : t.flags.err = true → s.flags.err = true := by exact id
  bbuf : s.bbuf.wf = true → t.bbuf.wf = true := by exact id
  tbuf : s.tbuf.wf = true → t.tbuf.wf = true := by exact id
  pbuf : s.pbuf.wf = true → t.pbuf.wf = true := by exact id
  port : t.port = s.port ∨ t.port = .idle := by exact .inl rfl

theorem SamePage.refl (s : State) : SamePage s s := {}

theorem SamePage.trans {s t u : State} (h : SamePage s t) (h' : SamePage t u) : SamePage s u where
  params := h'.params.trans h.params
  conf := h'.conf.trans h.conf
  busy := h'.busy.trans h.busy
  done := h.done ∘ h'.done
  err := h.err ∘ h'.err
  bbuf := h'.bbuf ∘ h.bbuf
  tbuf := h'.tbuf ∘ h.tbuf
  pbuf := h'.pbuf ∘ h.pbuf
  port := by
    obtain e | e := h'.port
    · exact e ▸ h.port
    · exact .inr e

theorem SamePage.done_false {s t : State} (h : SamePage s t) (hs : s.flags.done = false) : t.flags.done = false :=
  Bool.eq_false_iff.mpr (mt h.done (Bool.eq_false_iff.mp hs))

theorem SamePage.err_false {s t : State} (h : SamePage s t) (hs : s.flags.err = false) : t.flags.err = false :=
  Bool.eq_false_iff.mpr (mt h.err (Bool.eq_false_iff.mp hs))

/-- A sub-row stored in the band buffer leaves it canonical (R254). -/
theorem samePage_storeRow (d : List Byte) (s : State) : SamePage s (storeRow d s) :=
  { bbuf := fun h => Memory.wf_writeRange h _ _ }

/-- A transposed and scattered pass leaves both buffers canonical (R256, R257). -/
theorem samePage_transposeAndScatter (s : State) : SamePage s (transposeAndScatter s) :=
  { tbuf := wf_transposeColumns _ _ _, pbuf := wf_scatterColumns _ _ _ _ _ _ }

theorem samePage_bandTest (s : State) : SamePage s (bandTest s) := by
  unfold bandTest
  split
  · exact {}
  · exact {}

theorem samePage_afterPass (s : State) : SamePage s (afterPass s) := by
  unfold afterPass
  split
  · exact {}
  · exact {}

theorem samePage_asmNext (s : State) : SamePage s (asmNext s) := by
  unfold asmNext
  split
  · exact {}
  · exact (samePage_transposeAndScatter s).trans (samePage_afterPass _)

theorem samePage_afterCR (s : State) : SamePage s (afterCR s) := by
  unfold afterCR
  split_ifs
  all_goals exact {}

theorem samePage_half1Start (s : State) : SamePage s (half1Start s) := by
  unfold half1Start
  split
  · exact {}
  · exact {}

/-- What an action leaves to do is done from a state with `P`; a page that ends does so in a state with `D`. -/
def Action.Onward (P D : State → Prop) : Action → Prop
  | .go t => P t
  | .emit _ t => P t
  | .read _ _ t => P t
  | .done t => D t
  | .stop _ => True

theorem Action.Onward.mono {P Q D E : State → Prop} (hPQ : ∀ t, P t → Q t) (hDE : ∀ t, D t → E t) {a : Action}
    (h : a.Onward P D) : a.Onward Q E := by
  cases a with
  | go t => exact hPQ t h
  | emit i t => exact hPQ t h
  | read row ch t => exact hPQ t h
  | done t => exact hDE t h
  | stop f => trivial

theorem Action.Onward.ite {P D : State → Prop} {c : Prop} [Decidable c] {a b : Action} (ha : a.Onward P D)
    (hb : b.Onward P D) : (if c then a else b).Onward P D := by
  split
  · exact ha
  · exact hb

theorem asmRow_onward (s : State) (D : State → Prop) : (asmRow s).Onward (SamePage s) D := by
  unfold asmRow
  split
  · trivial
  · split
    · exact (samePage_storeRow _ s).trans {}
    · exact {}

theorem segSync_onward (s : State) (D : State → Prop) : (segSync s).Onward (SamePage s) D := by
  unfold segSync
  split
  · trivial
  · split
    · exact {}
    · exact .ite {} {}

theorem segData_onward (s : State) (D : State → Prop) : (segData s).Onward (SamePage s) D := by
  unfold segData
  split
  · trivial
  · split
    · exact {}
    · exact {}

/-- No position of the page procedure changes what `SamePage` says before the page ends, nor the configuration then. -/
theorem seqAction_onward (s : State) : (seqAction s).Onward (SamePage s) (fun t => t.conf = s.conf) := by
  unfold seqAction
  cases s.seq with
  | idle | pageDone => rfl
  | initDir | initHeight | segCR | bandLF | microHeight | microLF | restHeight | restLF | softHeight | ffFF | resetDir
  | resetHeight | resetPitch | resetChar => exact {}
  | bandInit | asmBegin | asmDone | softCount | bandEnd => exact {}
  | initPitch | chanBegin | half1Begin | softLF | ffQuirk => exact .ite {} {}
  | bandTest => exact samePage_bandTest s
  | afterCR => exact samePage_afterCR s
  | half1Start => exact samePage_half1Start s
  | asmRow => exact asmRow_onward s _
  | segSync => exact segSync_onward s _
  | segData => exact segData_onward s _
  | asmNext => exact .ite (samePage_asmNext s) trivial

/-- What holds after every position's action, if it holds before, holds after any number of them. -/
theorem runInternal_onward {P D : State → Prop} (hP : ∀ s, P s → (seqAction s).Onward P D) (n : Nat) {s : State}
    (hs : P s) : (runInternal n s).Onward P D := by
  obtain h | ⟨t, ht, h⟩ := runInternal_induction (Q := P) (R := Action.Onward P D)
    (fun s s' hs h => by simpa [h, Action.Onward] using hP s hs) (fun s hs _ => hP s hs) n s hs
  · exact h
  · exact h ▸ ht

/-- The work of one sequencer event keeps the page (R121). -/
theorem seqWork_onward (s : State) : (seqWork s).Onward (SamePage s) (fun t => t.conf = s.conf) :=
  runInternal_onward (P := SamePage s)
    (fun t ht => (seqAction_onward t).mono (fun _ => ht.trans) fun _ hconf => hconf.trans ht.conf) _ (.refl s)

/-! ### Decimal fields (R153, R154) -/

/-- A digit reads back as its number modulo 10. -/
theorem digitValue_digit (n : Nat) : digitValue (digit n) = some (n % 10) := by
  have hd : (digit n).toNat = 0x30 + n % 10 := by
    rw [digit, BitVec.toNat_ofNat]
    omega
  rw [digitValue, hd, if_pos (by omega), Nat.add_sub_cancel_left]

theorem dec4Value_dec4 {n : Nat} (h : n ≤ 9999) : dec4Value (dec4 n) = some n := by
  simp only [dec4Value, dec4, digitValue_digit, Option.bind_eq_bind, Option.bind_some, Option.pure_def,
    Option.some.injEq]
  omega

theorem dec2Value_dec2 {n : Nat} (h : n ≤ 99) : dec2Value (dec2 n) = some n := by
  simp only [dec2Value, dec2, digitValue_digit, Option.bind_eq_bind, Option.bind_some, Option.pure_def,
    Option.some.injEq]
  omega

theorem columnCount_dec4 {n : Nat} (h : n ≤ 9999) : columnCount (dec4 n) = n := by
  simp [columnCount, dec4Value_dec4 h]

/-! ### Which instructions are wire units -/

/-- The host's accesses and commands are no wire units (R161). -/
theorem isUnit_decodeBus (a : BusAccess) : isUnit (decodeBus a) = false := by
  unfold decodeBus decodeCmd
  split
  · split
    · split <;> rfl
    · rfl
  · rfl

/-- Every unit that the reader of the wire finds is a wire unit. -/
def ReadsUnit (r : Except Reject (Instr × List Byte)) : Prop := ∀ i rest, r = .ok (i, rest) → isUnit i = true

theorem ReadsUnit.error (e : Reject) : ReadsUnit (.error e) := fun _ _ h => by cases h

theorem ReadsUnit.ok {i : Instr} (h : isUnit i = true) (rest : List Byte) : ReadsUnit (.ok (i, rest)) :=
  fun _ _ e => by cases e; exact h

theorem ReadsUnit.ite {c : Prop} [Decidable c] {r r' : Except Reject (Instr × List Byte)} (h : ReadsUnit r)
    (h' : ReadsUnit r') : ReadsUnit (if c then r else r') := by
  split
  · exact h
  · exact h'

theorem readsUnit_takeFill (n : Nat) (bs : List Byte) {i : Instr} (h : isUnit i = true) :
    ReadsUnit (takeFill n bs i) :=
  .ite (.ite (.ok h _) (.error _)) (.error _)

theorem readsUnit_takeRibbon (bs : List Byte) : ReadsUnit (takeRibbon bs) := by
  unfold takeRibbon
  split
  · exact .ite (.ok rfl _) (.ite (.ok rfl _) (.ite (.ok rfl _) (.ite (.ok rfl _) (.error _))))
  · exact .error _

theorem readsUnit_takeLineHeight (bs : List Byte) : ReadsUnit (takeLineHeight bs) := by
  unfold takeLineHeight
  split
  · exact .ok rfl _
  · exact .error _

theorem readsUnit_takeDataG (bs : List Byte) : ReadsUnit (takeDataG bs) := by
  unfold takeDataG
  split
  · exact .error _
  · split
    · exact .error _
    · exact .ok rfl _

theorem readsUnit_takeDataC (bs : List Byte) : ReadsUnit (takeDataC bs) := by
  unfold takeDataC
  split
  · exact .error _
  · split
    · exact .error _
    · exact .ok rfl _

theorem readsUnit_takeSyncV (bs : List Byte) : ReadsUnit (takeSyncV bs) := by
  unfold takeSyncV
  split
  · exact .error _
  · exact readsUnit_takeFill _ _ rfl

theorem readsUnit_takeSyncU (bs : List Byte) : ReadsUnit (takeSyncU bs) := by
  unfold takeSyncU
  split
  · exact .error _
  · exact readsUnit_takeFill _ _ rfl

theorem readsUnit_readEscape (sel : Byte) (rest : List Byte) : ReadsUnit (readEscape sel rest) :=
  .ite (.ok rfl _) <| .ite (.ok rfl _) <| .ite (.ok rfl _) <| .ite (.ok rfl _) <| .ite (.ok rfl _) <|
    .ite (readsUnit_takeRibbon _) <| .ite (readsUnit_takeLineHeight _) <| .ite (readsUnit_takeDataG _) <|
    .ite (readsUnit_takeSyncV _) <| .ite (readsUnit_takeDataC _) <| .ite (readsUnit_takeSyncU _) (.error _)

theorem readsUnit_readUnit (bs : List Byte) : ReadsUnit (readUnit bs) := by
  unfold readUnit
  split
  · exact .error _
  · refine .ite (.ok rfl _) (.ite (.ok rfl _) (.ite (.ok rfl _) (.ite ?_ (.error _))))
    split
    · exact .error _
    · exact readsUnit_readEscape _ _

/-- What the decoder reads off the wire is a wire unit (R145, R159). -/
theorem isUnit_of_decodeWire {raw : Bool} {bytes : List Byte} {i : Instr} (h : decodeWire raw bytes = .ok i) :
    isUnit i = true := by
  unfold decodeWire at h
  split at h
  · cases h
    rfl
  · split at h
    · cases h
    · next hr =>
      cases h
      exact readsUnit_readUnit _ _ _ hr
    · cases h

/-! ### The bounds of a segment (R283) -/

/-- A segment's first non-zero group comes before the end of its last, and both are groups of it. -/
theorem trimBounds_some {pbuf : Memory} {sb stride ncols blk fin : Nat}
    (h : trimBounds pbuf sb stride ncols = some (blk, fin)) : blk < fin ∧ fin ≤ ncols := by
  unfold trimBounds at h
  split at h
  · next blk' last hblk hlast =>
    cases h
    obtain ⟨-, -, hfirst⟩ := List.find?_range_eq_some.mp hblk
    have hmem : last < ncols := by simpa using List.mem_of_find?_eq_some hlast
    have hle : ¬ last < blk := fun hlt => by
      have hz := hfirst last hlt
      rw [List.find?_some hlast] at hz
      cases hz
    omega
  · cases h

/-! ### The units that a page issues are well-formed (R145) -/

/-- A unit that may be sent: one of the fifteen, with its operands in range. -/
def Sendable (i : Instr) : Prop := WellFormed i ∧ isUnit i = true

theorem sendable_heightUnit {n : Nat} (h : n = 1 ∨ n = 15 ∨ n = 16) : Sendable (heightUnit n) := by
  have hv : dec2Value (dec2 n) = some n := dec2Value_dec2 (by omega)
  refine ⟨?_, rfl⟩
  obtain rfl | rfl | rfl := h
  · exact .inl hv
  · exact .inr (.inl hv)
  · exact .inr (.inr hv)

theorem sendable_dirUnit (c : ConfRegs) : Sendable (dirUnit c) := by
  unfold dirUnit
  split
  · exact ⟨trivial, rfl⟩
  · exact ⟨trivial, rfl⟩

theorem sendable_raw {bytes : List Byte} (h1 : 0 < bytes.length) (h2 : bytes.length ≤ 16) : Sendable (.raw bytes) :=
  ⟨⟨h1, h2⟩, rfl⟩

theorem sendable_pitchBytes {c : ConfRegs} (h1 : 0 < c.activePitchLen) (h2 : c.activePitchLen ≤ 4) :
    Sendable (.raw c.pitchBytes) := by
  refine sendable_raw ?_ ?_ <;> simp only [ConfRegs.pitchBytes, List.length_map, List.length_range] <;> omega

theorem sendable_quirkBytes {c : ConfRegs} (h1 : 0 < c.quirkLen.toNat) (h2 : c.quirkLen.toNat ≤ 16) :
    Sendable (.raw c.quirkBytes) := by
  refine sendable_raw ?_ ?_ <;> simp only [ConfRegs.quirkBytes, List.length_map, List.length_range] <;> omega

/-- A position-sync over 8 to 9991 columns (R286). -/
theorem sendable_syncUnit (stride : Nat) {n : Nat} (h1 : 8 ≤ n) (h2 : n ≤ 9991) : Sendable (syncUnit stride n) := by
  have hc : columnCount (dec4 n) = n := columnCount_dec4 (by omega)
  have hf : SyncField (dec4 n) := ⟨by rw [hc, dec4Value_dec4 (by omega)], by omega, by omega⟩
  unfold syncUnit
  split
  · exact ⟨hf, rfl⟩
  · exact ⟨hf, rfl⟩

/-- A data unit of 1 to 9992 columns with a payload of its stride (R287). -/
theorem sendable_dataUnit {stride n : Nat} {payload : List Byte} (hs : stride = 1 ∨ stride = 3) (h1 : 1 ≤ n)
    (h2 : n ≤ 9992) (hp : payload.length = stride * n) : Sendable (dataUnit stride n payload) := by
  have hc : columnCount (dec4 n) = n := columnCount_dec4 (by omega)
  have hf : DataField stride (dec4 n) payload :=
    ⟨by rw [hc, dec4Value_dec4 (by omega)], by omega, by omega, by rw [hc, hp]⟩
  unfold dataUnit
  obtain rfl | rfl := hs
  · exact ⟨hf, rfl⟩
  · exact ⟨hf, rfl⟩

theorem Mode.stride_eq (m : Mode) : m.stride = 1 ∨ m.stride = 3 := by
  cases m <;> simp [Mode.stride]

/-- The data unit of a segment of at most 9992 columns (R284, R287). -/
theorem sendable_currentDataUnit {s : State} {blk fin : Nat} (h : currentBounds s = some (blk, fin))
    (hw : s.conf.rowBytes ≤ 1249) : Sendable (currentDataUnit s blk fin) := by
  obtain ⟨hlt, hle⟩ := trimBounds_some h
  have hstart : dataStart blk ≤ blk := by
    unfold dataStart
    split
    · exact Nat.le_refl _
    · exact Nat.zero_le _
  rw [ConfRegs.columns] at hle
  exact sendable_dataUnit (Mode.stride_eq _) (by omega) (by omega) (Memory.length_readRange _ _ _)

/-! ### The constants of an accepted configuration -/

theorem ConfRegs.rows_lt (c : ConfRegs) : c.rows < 65536 := c.height.isLt

theorem ConfRegs.passes_pos (c : ConfRegs) : 0 < c.passes := by
  unfold ConfRegs.passes
  cases c.cfg.mode <;> simp [Mode.passes]

theorem ConfRegs.passes_le (c : ConfRegs) : c.passes ≤ 3 := by
  unfold ConfRegs.passes
  cases c.cfg.mode <;> simp [Mode.passes]

theorem channels_of_startCheck {k : Config.Params} {c : ConfRegs} (h : startCheck k c = none) :
    0 < c.channels ∧ c.channels ≤ 4 := by
  obtain ⟨hc, -⟩ := startCheck_none h
  omega

/-- The next slot of a loop variable that is not at its end is the next number. -/
theorem toNat_succ_lt {x : BitVec 2} {n : Nat} (h : x.toNat + 1 < n) (hn : n ≤ 4) : (x + 1).toNat < n := by
  rw [BitVec.toNat_add]
  simp
  omega

/-! ### The positions of the page procedure -/

/-- The phase that STATUS.STATE shows at a position, between events or within one; none where the position sets it
itself, and at idle (R41, R343, R350). -/
def Seq.workPhase : Seq → Option Phase
  | .asmRow | .asmDone => some .assemble
  | .bandLF | .microHeight | .half1Begin | .restHeight => some .encode
  | .softHeight | .ffQuirk => some .finish
  | q => q.restPhase

theorem Seq.workPhase_of_restPhase {q : Seq} {ph : Phase} (h : q.restPhase = some ph) : q.workPhase = some ph := by
  cases q with
  | asmRow | asmDone | bandLF | microHeight | half1Begin | restHeight | softHeight | ffQuirk => cases h
  | _ => exact h

theorem Seq.inChannel_of_inPass {q : Seq} (h : q.inPass = true) : q.inChannel = true := by
  cases q with
  | asmRow | asmNext | asmDone | segSync | segData | segCR | afterCR | microHeight | microLF | half1Start
  | half1Begin => rfl
  | _ => cases h

theorem Seq.inChannel_of_inAssemble {q : Seq} (h : q.inAssemble = true) : q.inChannel = true := by
  cases q with
  | asmBegin | asmRow | asmNext => rfl
  | _ => cases h

theorem Seq.inBand_of_inChannel {q : Seq} (h : q.inChannel = true) : q.inBand = true := by
  cases q with
  | bandLF | restHeight | restLF | bandEnd => rfl
  | _ => exact h

theorem Seq.inInit_of_inBand {q : Seq} (h : q.inBand = true) : q.inInit = false := by
  cases q with
  | initDir | initHeight | initPitch | bandInit => cases h
  | _ => rfl

/-- Every claim on the loop variables and on STATE that position `q'` makes is one that `q` makes, or, in a HIGH page, the
claim that it is one. -/
def Seq.leadsTo (high : Bool) (q q' : Seq) : Bool :=
  (!q'.inChannel || q.inChannel) && (!q'.inPass || q.inPass) && (!q'.inAssemble || q.inAssemble) &&
    (!q'.inHigh || (q.inHigh || high)) && (!q'.inSegment || q.inSegment) && (!q'.inBand || q.inBand) &&
    q.inInit == q'.inInit && (q'.workPhase == none || q.workPhase == q'.workPhase)

/-- A page at a position of its procedure, within an event: the loop variables agree with the position, STATE does where
the position does not set it, and the back-up bytes are sent only in a formfeed eject (R351, R353). -/
structure State.Placed (s : State) : Prop where
  loop : s.LoopOk
  phase : ∀ ph, s.seq.workPhase = some ph → s.phase = ph
  away : s.seq ≠ .idle
  eject : s.seq = .ffQuirk → s.conf.formfeedEject = true

/-- The sequencer moves on to a position that claims nothing new, with the loop variables that R81 claims kept. -/
theorem State.Placed.move {s t : State} (h : s.Placed) {q : Seq} (hq : s.seq = q) (high : Bool := false)
    (hhigh : high = true → s.conf.cfg.mode = .high := by nofun)
    (hlead : Seq.leadsTo high q t.seq = true := by rfl) (haway : t.seq ≠ .idle := by nofun)
    (heject : t.seq ≠ .ffQuirk := by nofun)
    (hconf : t.conf = s.conf := by rfl) (hphase : t.phase = s.phase := by rfl) (hprog : t.prog = s.prog := by rfl)
    (hlnum : t.loop.lnum = s.loop.lnum := by rfl) (hci : t.loop.ci = s.loop.ci := by rfl)
    (hch : t.loop.ch = s.loop.ch := by rfl) (hp : t.loop.p = s.loop.p := by rfl)
    (hh : t.loop.h = s.loop.h := by rfl) : t.Placed := by
  subst hq
  simp only [Seq.leadsTo, Bool.and_eq_true, Bool.or_eq_true, Bool.not_eq_true', beq_iff_eq] at hlead
  obtain ⟨⟨⟨⟨⟨⟨⟨slot, pass⟩, chan⟩, high'⟩, half⟩, band⟩, init⟩, phase⟩ := hlead
  have hhi (e : t.seq.inHigh = true) : s.conf.cfg.mode = .high := by
    obtain e' | e' | e' := high'
    · simp [e'] at e
    · exact h.loop.high e'
    · exact hhigh e'
  have inherits {a b : Bool} (hab : a = false ∨ b = true) (ha : a = true) : b = true :=
    hab.resolve_left (by simp [ha])
  refine ⟨⟨?_, ?_, ?_, ?_, ?_, ?_, ?_, ?_⟩, fun ph e => ?_, haway, fun e => absurd e heject⟩
  · exact fun e => by rw [hci, hconf]; exact h.loop.slot (inherits slot e)
  · exact fun e => by rw [hp, hconf]; exact h.loop.pass (inherits pass e)
  · exact fun e => by rw [hch, hci, hconf]; exact h.loop.chan (inherits chan e)
  · exact fun e => by rw [hconf]; exact hhi e
  · exact fun e => by rw [hh, hconf]; exact h.loop.half (inherits half e)
  · exact fun e => by rw [hlnum, hconf]; exact h.loop.band (inherits band e)
  · exact fun e => by rw [hprog]; exact h.loop.start (init.trans e)
  · exact fun e => by rw [hprog, hlnum, hconf]; exact h.loop.count (init.trans e)
  · rw [hphase]
    refine h.phase ph ?_
    obtain e' | e' := phase
    · rw [e'] at e
      cases e
    · rw [e', e]

/-! ### The moves that change a loop variable or STATE -/

/-- Between two bands the counters stand at the end of what is done; only `count` is claimed (R340). -/
theorem State.Placed.bandTest_of_count {s : State} (hq : s.seq = .bandTest) (hcount : s.prog.lnum = s.loop.lnum ∧
    s.loop.lnum.toNat = 8 * s.conf.passes * s.prog.bandCnt.toNat ∧
    s.loop.lnum.toNat < s.conf.rows + 8 * s.conf.passes) : s.Placed where
  loop := ⟨by simp [hq, Seq.inChannel], by simp [hq, Seq.inPass], by simp [hq, Seq.inAssemble], by simp [hq, Seq.inHigh],
    by simp [hq, Seq.inSegment], by simp [hq, Seq.inBand, Seq.inChannel], by simp [hq, Seq.inInit], fun _ => hcount⟩
  phase := by simp [hq, Seq.workPhase, Seq.restPhase]
  away := by simp [hq]
  eject := by simp [hq]

/-- The band loop begins at row 0 (R340). -/
theorem State.Placed.bandInit {s : State} (h : s.Placed) (hq : s.seq = .bandInit) :
    (atSeq .bandTest { s with loop := { s.loop with lnum := 0 } }).Placed := by
  obtain ⟨hl, hb⟩ := h.loop.start (by rw [hq]; rfl)
  refine .bandTest_of_count rfl ⟨hl, ?_, ?_⟩
  · simp [atSeq, hb]
  · have := s.conf.passes_pos
    simp only [atSeq]
    simp
    omega

/-- The end of a band: the next band's first row and the counters (R341). No band but the last passes H, so nothing
wraps. -/
theorem State.Placed.bandEnd {s : State} (h : s.Placed) (hq : s.seq = .bandEnd) : (bandEnd s).Placed := by
  obtain ⟨-, hmul, -⟩ := h.loop.count (by rw [hq]; rfl)
  have hband : s.loop.lnum.toNat < s.conf.rows := h.loop.band (by rw [hq]; rfl)
  have hrows := s.conf.rows_lt
  have hpos := s.conf.passes_pos
  have hle := s.conf.passes_le
  have hcnt : s.prog.bandCnt.toNat ≤ s.loop.lnum.toNat := by
    rw [hmul]
    exact Nat.le_mul_of_pos_left _ (by omega)
  have hlnum : (s.loop.lnum + BitVec.ofNat 17 (8 * s.conf.passes)).toNat = s.loop.lnum.toNat + 8 * s.conf.passes := by
    rw [BitVec.toNat_add, BitVec.toNat_ofNat]
    omega
  have hcnt' : (s.prog.bandCnt + 1).toNat = s.prog.bandCnt.toNat + 1 := by
    rw [BitVec.toNat_add]
    simp
    omega
  refine .bandTest_of_count rfl ⟨rfl, ?_, ?_⟩
  · show (s.loop.lnum + BitVec.ofNat 17 (8 * s.conf.passes)).toNat = 8 * s.conf.passes * (s.prog.bandCnt + 1).toNat
    rw [hlnum, hcnt', hmul, Nat.mul_succ]
  · show (s.loop.lnum + BitVec.ofNat 17 (8 * s.conf.passes)).toNat < s.conf.rows + 8 * s.conf.passes
    omega

/-- A channel slot begins within a band (R342, R346). -/
theorem State.Placed.chanBegin_of_slot {s : State} (h : s.Placed) {ci : BitVec 2} (hinit : s.seq.inInit = false)
    (hband : s.loop.lnum.toNat < s.conf.rows) (hslot : ci.toNat < s.conf.channels) :
    (atSeq .chanBegin { s with loop := { s.loop with ci := ci } }).Placed where
  loop := ⟨fun _ => hslot, nofun, nofun, nofun, nofun, fun _ => hband, nofun, fun _ => h.loop.count hinit⟩
  phase := nofun
  away := nofun
  eject := nofun

/-- The second loop of HALF_OUTER comes to a channel slot (R345). -/
theorem State.Placed.half1Begin_of_slot {s : State} (h : s.Placed) {ci : BitVec 2} {hf : BitVec 1}
    (hpass : s.seq.inPass = true) (hph : s.seq.workPhase = some .encode) (hhigh : s.conf.cfg.mode = .high)
    (hslot : ci.toNat < s.conf.channels) :
    (atSeq .half1Begin { s with loop := { s.loop with ci := ci, h := hf } }).Placed where
  loop :=
    have hband := Seq.inBand_of_inChannel (Seq.inChannel_of_inPass hpass)
    ⟨fun _ => hslot, fun _ => h.loop.pass hpass, nofun, fun _ => hhigh, nofun, fun _ => h.loop.band hband, nofun,
      fun _ => h.loop.count (Seq.inInit_of_inBand hband)⟩
  phase := fun ph e => by cases e; exact h.phase _ hph
  away := nofun
  eject := nofun

/-- A segment begins, at half 0 outside HIGH (R280, R343). -/
theorem State.Placed.segSync_of_half {s t : State} (h : s.Placed) (hq : t.seq = .segSync) {hf : BitVec 1}
    (hpass : s.seq.inPass = true) (hhalf : s.conf.cfg.mode ≠ .high → hf = 0) (hph : t.phase = .encode)
    (hconf : t.conf = s.conf := by rfl) (hprog : t.prog = s.prog := by rfl)
    (hloop : t.loop = { s.loop with h := hf } := by rfl) : t.Placed where
  loop := by
    have hchan := Seq.inChannel_of_inPass hpass
    have hband := Seq.inBand_of_inChannel hchan
    constructor
    all_goals simp only [hq, hconf, hprog, hloop]
    · exact fun _ => h.loop.slot hchan
    · exact fun _ => h.loop.pass hpass
    · nofun
    · nofun
    · exact fun _ => hhalf
    · exact fun _ => h.loop.band hband
    · nofun
    · exact fun _ => h.loop.count (Seq.inInit_of_inBand hband)
  phase := fun ph e => by
    rw [hq] at e
    cases e
    exact hph
  away := by simp [hq]
  eject := by simp [hq]

/-- Assemble comes to a sub-row of a pass (R250). -/
theorem State.Placed.asmRow_of_pass {s t : State} (h : s.Placed) (hasm : s.seq.inAssemble = true)
    (hph : s.seq.workPhase = some .assemble) {p : BitVec 2} {sub : BitVec 3} (hpass : p.toNat < s.conf.passes)
    (hq : t.seq = .asmRow := by rfl) (hphase : t.phase = s.phase := by rfl) (hconf : t.conf = s.conf := by rfl)
    (hprog : t.prog = s.prog := by rfl) (hloop : t.loop = { s.loop with p := p, s := sub } := by rfl) : t.Placed where
  loop := by
    have hchan := Seq.inChannel_of_inAssemble hasm
    have hband := Seq.inBand_of_inChannel hchan
    constructor
    all_goals simp only [hq, hconf, hprog, hloop]
    · exact fun _ => h.loop.slot hchan
    · exact fun _ => hpass
    · exact fun _ => h.loop.chan hasm
    · nofun
    · nofun
    · exact fun _ => h.loop.band hband
    · nofun
    · exact fun _ => h.loop.count (Seq.inInit_of_inBand hband)
  phase := fun ph e => by
    rw [hq] at e
    rw [hphase]
    cases e
    exact h.phase _ hph
  away := by simp [hq]
  eject := by simp [hq]

/-- The start of a channel slot: STATE <- ASSEMBLE and ch (R253, R342). -/
theorem State.Placed.chanBegin {s : State} (h : s.Placed) (hq : s.seq = .chanBegin) : (chanBegin s).Placed where
  loop := ⟨fun _ => h.loop.slot (by rw [hq]; rfl), nofun, fun _ => rfl, nofun, nofun,
    fun _ => h.loop.band (by rw [hq]; rfl), nofun, fun _ => h.loop.count (by rw [hq]; rfl)⟩
  phase := fun ph e => by cases e; rfl
  away := nofun
  eject := nofun

/-- The eject begins after the last band: STATE <- FINISH (R350, R351). -/
theorem State.Placed.eject_of_mode {s : State} (h : s.Placed) (hinit : s.seq.inInit = false) {q : Seq}
    (hq : q = .ffQuirk ∧ s.conf.formfeedEject = true ∨ q = .softHeight) : (atSeq q (atPhase .finish s)).Placed := by
  have hcount := h.loop.count hinit
  obtain ⟨rfl, hff⟩ | rfl := hq
  · exact ⟨⟨nofun, nofun, nofun, nofun, nofun, nofun, nofun, fun _ => hcount⟩, fun ph e => by cases e; rfl, nofun,
      fun _ => hff⟩
  · exact ⟨⟨nofun, nofun, nofun, nofun, nofun, nofun, nofun, fun _ => hcount⟩, fun ph e => by cases e; rfl, nofun,
      nofun⟩

/-! ### The positions that branch -/

theorem State.Placed.bandTest {s : State} (h : s.Placed) (hq : s.seq = .bandTest) (hch : 0 < s.conf.channels) :
    (bandTest s).Placed := by
  have hinit : s.seq.inInit = false := by rw [hq]; rfl
  unfold Machine.bandTest
  split
  · next hlt => exact h.chanBegin_of_slot hinit hlt hch
  · refine h.eject_of_mode hinit ?_
    split
    · next hff => exact .inl ⟨rfl, hff⟩
    · exact .inr rfl

/-- After a sub-row: the next sub-row, the next pass, or the end of Assemble (R250). -/
theorem State.Placed.asmNext {s : State} (h : s.Placed) (hq : s.seq = .asmNext) : (asmNext s).Placed := by
  have hasm : s.seq.inAssemble = true := by rw [hq]; rfl
  have hph : s.seq.workPhase = some .assemble := by rw [hq]; rfl
  unfold Machine.asmNext afterPass
  split
  · exact h.asmRow_of_pass hasm hph (h.loop.pass (by rw [hq]; rfl))
  · split
    · next hmore => exact h.asmRow_of_pass hasm hph (toNat_succ_lt hmore (Nat.le_succ_of_le (ConfRegs.passes_le _)))
    · exact h.move hq

/-- The cadence after a carriage return (R342 to R347). -/
theorem State.Placed.afterCR {s : State} (h : s.Placed) (hq : s.seq = .afterCR) (hch : s.conf.channels ≤ 4) :
    (afterCR s).Placed := by
  have hband : s.seq.inBand = true := by rw [hq]; rfl
  have hpass : s.seq.inPass = true := by rw [hq]; rfl
  have hph : s.seq.workPhase = some .encode := by rw [hq]; rfl
  have hinit := Seq.inInit_of_inBand hband
  have hslot (hm : moreChannels s = true) : (s.loop.ci + 1).toNat < s.conf.channels :=
    toNat_succ_lt (by simpa [moreChannels] using hm) hch
  have hnext (hm : moreChannels s = true) : (atSeq .chanBegin (nextChannel s)).Placed :=
    h.chanBegin_of_slot hinit (h.loop.band hband) (hslot hm)
  have hhalf1 (hm : moreChannels s = true) (hhigh : s.conf.cfg.mode = .high) :
      (atSeq .half1Begin (nextChannel s)).Placed :=
    h.half1Begin_of_slot hpass hph hhigh (hslot hm)
  unfold Machine.afterCR
  split
  · next hhigh =>
    have hmicro : (atSeq .microHeight s).Placed := h.move hq (high := true) (fun _ => hhigh)
    have hrest : (atSeq .restHeight s).Placed := h.move hq (high := true) (fun _ => hhigh)
    split
    · split
      · exact hmicro
      · split
        · next hm => exact hnext hm
        · exact hrest
    · split
      · split
        · next hm => exact hnext hm
        · exact hmicro
      · split
        · next hm => exact hhalf1 hm hhigh
        · exact hrest
  · split
    · next hm => exact hnext hm
    · exact h.move hq

theorem State.Placed.half1Start {s : State} (h : s.Placed) (hq : s.seq = .half1Start) (hch : 0 < s.conf.channels) :
    (half1Start s).Placed := by
  have hpass : s.seq.inPass = true := by rw [hq]; rfl
  have hph : s.seq.workPhase = some .encode := by rw [hq]; rfl
  have hhigh : s.conf.cfg.mode = .high := h.loop.high (by rw [hq]; rfl)
  unfold Machine.half1Start
  split
  · exact h.segSync_of_half rfl hpass (absurd hhigh) (h.phase _ hph)
  · exact h.half1Begin_of_slot hpass hph hhigh hch

/-! ### What each position does -/

/-- What a position's action leads to: another position of the page; a unit or a request, of which the page rests; or
the page's end. -/
def Action.PlacedFrom (s : State) : Action → Prop
  | .go t => t.Placed
  | .emit i t => Sendable i ∧ t.seq.restPhase.isSome = true ∧ t.Placed
  | .read row ch t => row = BitVec.ofNat 16 (currentRow t) ∧ currentRow t < t.conf.rows ∧ ch = t.loop.ch ∧
      t.seq = .asmNext ∧ t.Placed
  | .done t => t = pageDone s
  | .stop _ => True

/-- A unit is sent if there is one to send, and the page moves on to the same position without it. -/
theorem placedFrom_ite {s : State} {c : Prop} [Decidable c] {i : Instr} {t : State} (hi : c → Sendable i)
    (hrest : t.seq.restPhase.isSome = true) (ht : t.Placed) :
    (if c then Action.emit i t else .go t).PlacedFrom s := by
  split
  · next hc => exact ⟨hi hc, hrest, ht⟩
  · exact ht

section

variable {s : State} (h : s.Placed)

include h

theorem placedFrom_asmRow (hq : s.seq = .asmRow) : (asmRow s).PlacedFrom s := by
  unfold asmRow
  split
  · trivial
  · split
    · exact h.move hq
    · next hrow => exact ⟨rfl, Nat.lt_of_not_le hrow, rfl, rfl, h.move hq⟩

/-- A position-sync covers more than 7 columns and fewer than 8W (R284 to R286). -/
theorem placedFrom_segSync (hq : s.seq = .segSync) (hw : s.conf.rowBytes ≤ 1249) : (segSync s).PlacedFrom s := by
  unfold segSync
  split
  · trivial
  · split
    · exact h.move hq
    · next blk fin hb =>
      obtain ⟨hlt, hle⟩ := trimBounds_some hb
      rw [ConfRegs.columns] at hle
      refine placedFrom_ite (fun hs => sendable_syncUnit _ ?_ (by omega)) rfl (h.move hq)
      exact of_decide_eq_true hs

theorem placedFrom_segData (hq : s.seq = .segData) (hw : s.conf.rowBytes ≤ 1249) : (segData s).PlacedFrom s := by
  unfold segData
  split
  · trivial
  · split
    · exact h.move hq
    · next hb => exact ⟨sendable_currentDataUnit hb hw, rfl, h.move hq⟩

theorem placedFrom_asmNext (hq : s.seq = .asmNext) :
    (if loopInRange s then Action.go (asmNext s) else .stop .brokenPage).PlacedFrom s := by
  split
  · exact h.asmNext hq
  · trivial

/-- The line feeds of the soft eject are sent one by one (R352). -/
theorem placedFrom_softLF (hq : s.seq = .softLF) :
    (if s.loop.nlf = 0 then Action.go (atSeq .resetDir s)
      else .emit .lf { s with seq := .softLF, loop := { s.loop with nlf := s.loop.nlf - 1 } }).PlacedFrom s := by
  split
  · exact h.move hq
  · exact ⟨⟨trivial, rfl⟩, rfl, h.move hq⟩

/-- Every position of the page procedure keeps the page placed and issues only what it may (R330 to R361). -/
theorem seqAction_placedFrom (hc : startCheck s.params s.conf = none) : (seqAction s).PlacedFrom s := by
  obtain ⟨-, ⟨-, hw⟩, -, hpitch, hquirk, -, -⟩ := startCheck_none hc
  obtain ⟨hch, hch4⟩ := channels_of_startCheck hc
  unfold seqAction
  cases hq : s.seq with
  | idle => exact absurd hq h.away
  | initDir => exact ⟨sendable_dirUnit _, rfl, h.move hq⟩
  | initHeight => exact ⟨sendable_heightUnit (by simp), rfl, h.move hq⟩
  | initPitch => exact placedFrom_ite (fun hp => sendable_pitchBytes hp hpitch) rfl (h.move hq)
  | bandInit => exact h.bandInit hq
  | bandTest => exact h.bandTest hq hch
  | chanBegin => exact placedFrom_ite (fun _ => ⟨trivial, rfl⟩) rfl (h.chanBegin hq)
  | asmBegin =>
    exact h.asmRow_of_pass (by rw [hq]; rfl) (by rw [hq]; rfl) (p := 0) (sub := 0) s.conf.passes_pos
  | asmRow => exact placedFrom_asmRow h hq
  | asmNext => exact placedFrom_asmNext h hq
  | asmDone => exact h.segSync_of_half rfl (hf := 0) (by rw [hq]; rfl) (fun _ => rfl) rfl
  | segSync => exact placedFrom_segSync h hq hw
  | segData => exact placedFrom_segData h hq hw
  | segCR => exact ⟨⟨trivial, rfl⟩, rfl, h.move hq⟩
  | afterCR => exact h.afterCR hq hch4
  | bandLF | microLF | restLF => exact ⟨⟨trivial, rfl⟩, rfl, h.move hq⟩
  | microHeight | restHeight | softHeight => exact ⟨sendable_heightUnit (by simp), rfl, h.move hq⟩
  | half1Start => exact h.half1Start hq hch
  | half1Begin =>
    have hhigh : s.conf.cfg.mode = .high := h.loop.high (by rw [hq]; rfl)
    exact placedFrom_ite (fun _ => ⟨trivial, rfl⟩) rfl
      (h.segSync_of_half rfl (hf := s.loop.h) (by rw [hq]; rfl) (absurd hhigh) (h.phase _ (by rw [hq]; rfl)))
  | bandEnd => exact h.bandEnd hq
  | softCount => exact h.move hq
  | softLF => exact placedFrom_softLF h hq
  | ffQuirk => exact placedFrom_ite (fun hn => sendable_quirkBytes hn (hquirk (h.eject hq))) rfl (h.move hq)
  | ffFF | resetDir | resetChar => exact ⟨⟨trivial, rfl⟩, rfl, h.move hq⟩
  | resetHeight => exact ⟨sendable_heightUnit (by simp), rfl, h.move hq⟩
  | resetPitch =>
    refine ⟨?_, rfl, h.move hq⟩
    split
    · exact ⟨trivial, rfl⟩
    · exact ⟨trivial, rfl⟩
  | pageDone => rfl

end

/-! ### The work of one event is bounded (R431) -/

/-- Sub-rows of an Assemble that are still to come after the one that the loop variables name (R250). -/
def rowsLeft (s : State) : Nat := 8 * (s.conf.passes - 1 - s.loop.p.toNat) + (7 - s.loop.s.toNat)

/-- A bound on the positions that the sequencer passes through before it comes to a transaction or the page's end. -/
def positionsLeft (s : State) : Nat :=
  match s.seq with
  | .initPitch => 57
  | .bandInit | .bandEnd => 56
  | .bandTest | .afterCR => 55
  | .chanBegin => 54
  | .asmBegin => 53
  | .asmRow => 6 + 2 * rowsLeft s
  | .asmNext => 5 + 2 * rowsLeft s
  | .half1Start => 5
  | .asmDone | .half1Begin => 4
  | .segSync | .softCount => 3
  | .segData | .softLF | .ffQuirk => 2
  | _ => 1

theorem rowsLeft_le (s : State) : rowsLeft s ≤ 23 := by
  have := s.conf.passes_le
  unfold rowsLeft
  omega

theorem positionsLeft_le (s : State) : positionsLeft s ≤ 57 := by
  have := rowsLeft_le s
  unfold positionsLeft
  split <;> omega

/-- The action comes to a transaction, to the page's end or to a position nearer to one. -/
def Action.Nearer (n : Nat) : Action → Prop
  | .go t => positionsLeft t < n
  | _ => True

theorem Action.Nearer.ite {n : Nat} {c : Prop} [Decidable c] {a b : Action} (ha : a.Nearer n) (hb : b.Nearer n) :
    (if c then a else b).Nearer n := by
  split
  · exact ha
  · exact hb

theorem nearer_bandTest (s : State) : positionsLeft (bandTest s) < 55 := by
  unfold bandTest
  split
  · exact Nat.lt_succ_self 54
  · split
    · exact (by decide : 2 < 55)
    · exact (by decide : 1 < 55)

theorem nearer_afterCR (s : State) : positionsLeft (afterCR s) < 55 := by
  unfold afterCR
  split_ifs
  all_goals exact of_decide_eq_true rfl

theorem nearer_half1Start (s : State) : positionsLeft (half1Start s) < 5 := by
  unfold half1Start
  split
  · exact (by decide : 3 < 5)
  · exact (by decide : 4 < 5)

/-- After a sub-row one fewer is left, or the pass or Assemble is over. -/
theorem nearer_asmNext (s : State) : positionsLeft (asmNext s) < 5 + 2 * rowsLeft s := by
  unfold asmNext afterPass
  split
  · next hs =>
    have hs' : (s.loop.s + 1).toNat = s.loop.s.toNat + 1 := by
      rw [BitVec.toNat_add]
      simp
      omega
    show 6 + 2 * (8 * (s.conf.passes - 1 - s.loop.p.toNat) + (7 - (s.loop.s + 1).toNat)) < 5 + 2 * rowsLeft s
    rw [rowsLeft]
    omega
  · split
    · next hp =>
      have hp : s.loop.p.toNat + 1 < s.conf.passes := hp
      have hp' : (s.loop.p + 1).toNat = s.loop.p.toNat + 1 := by
        have := s.conf.passes_le
        rw [BitVec.toNat_add]
        simp
        omega
      show 6 + 2 * (8 * (s.conf.passes - 1 - (s.loop.p + 1).toNat) + 7) < 5 + 2 * rowsLeft s
      rw [rowsLeft]
      omega
    · show 4 < 5 + 2 * rowsLeft s
      omega

theorem nearer_asmRow (s : State) : (asmRow s).Nearer (6 + 2 * rowsLeft s) := by
  unfold asmRow
  split
  · trivial
  · split
    · show 5 + 2 * rowsLeft s < 6 + 2 * rowsLeft s
      omega
    · trivial

theorem nearer_segSync (s : State) : (segSync s).Nearer 3 := by
  unfold segSync
  split
  · trivial
  · split
    · exact (by decide : 1 < 3)
    · exact .ite trivial (by decide : 2 < 3)

theorem nearer_segData (s : State) : (segData s).Nearer 2 := by
  unfold segData
  split
  · trivial
  · split
    · exact (by decide : 1 < 2)
    · trivial

/-- Every position leads nearer to a transaction or to the page's end. -/
theorem seqAction_nearer (s : State) : (seqAction s).Nearer (positionsLeft s) := by
  unfold seqAction positionsLeft
  cases s.seq with
  | idle | initDir | initHeight | segCR | bandLF | microHeight | microLF | restHeight | restLF | softHeight | ffFF
  | resetDir | resetHeight | resetPitch | resetChar | pageDone => trivial
  | initPitch => exact .ite trivial (by decide : 56 < 57)
  | bandInit | bandEnd => exact (by decide : 55 < 56)
  | bandTest => exact nearer_bandTest s
  | chanBegin => exact .ite trivial (by decide : 53 < 54)
  | asmBegin =>
    have := s.conf.passes_le
    show 6 + 2 * (8 * (s.conf.passes - 1) + 7) < 53
    omega
  | asmRow => exact nearer_asmRow s
  | asmNext => exact .ite (nearer_asmNext s) trivial
  | asmDone => exact (by decide : 3 < 4)
  | segSync => exact nearer_segSync s
  | segData => exact nearer_segData s
  | afterCR => exact nearer_afterCR s
  | half1Start => exact nearer_half1Start s
  | half1Begin => exact .ite trivial (by decide : 3 < 4)
  | softCount => exact (by decide : 2 < 3)
  | softLF => exact .ite (by decide : 1 < 2) trivial
  | ffQuirk => exact .ite trivial (by decide : 1 < 2)

theorem runInternal_ne_go {n : Nat} {s : State} (h : positionsLeft s < n) (t : State) : runInternal n s ≠ .go t := by
  induction n generalizing s with
  | zero => omega
  | succ n ih =>
    have hnear := seqAction_nearer s
    cases ha : seqAction s with
    | go s' =>
      rw [ha] at hnear
      have hlt : positionsLeft s' < positionsLeft s := hnear
      rw [runInternal_go ha]
      exact ih (by omega)
    | emit | read | done | stop =>
      rw [runInternal_stop ha (by simp)]
      simp

/-- One event's work never uses up its fuel: it comes to a transaction, to the page's end or to a stop. -/
theorem seqWork_ne_go (s t : State) : seqWork s ≠ .go t :=
  runInternal_ne_go (Nat.lt_of_le_of_lt (positionsLeft_le s) (by decide)) t

/-! ### Consistent states: how they are made -/

theorem State.LoopOk.of_eq {s t : State} (h : s.LoopOk) (hconf : t.conf = s.conf) (hseq : t.seq = s.seq)
    (hloop : t.loop = s.loop) (hlnum : t.prog.lnum = s.prog.lnum) (hband : t.prog.bandCnt = s.prog.bandCnt) :
    t.LoopOk := by
  obtain ⟨slot, pass, chan, high, half, band, start, count⟩ := h
  constructor
  all_goals rw [hseq]
  all_goals simpa only [hconf, hloop, hlnum, hband]

/-- From `s` to `t` the page stays the same and stays where it is. -/
structure SamePlace (s t : State) : Prop extends SamePage s t where
  phase : t.phase = s.phase := by rfl
  seq : t.seq = s.seq := by rfl
  loop : t.loop = s.loop := by rfl
  lnum : t.prog.lnum = s.prog.lnum := by rfl
  bandCnt : t.prog.bandCnt = s.prog.bandCnt := by rfl

theorem State.PortOk.of_samePlace {s t : State} (h : s.PortOk) (hk : SamePlace s t) : t.PortOk := by
  obtain e | e := hk.port
  · simpa only [State.PortOk, currentRow, e, hk.conf, hk.seq, hk.loop] using h
  · simp only [State.PortOk, e]

/-- A state with the same page in the same place is consistent too. -/
theorem State.Inv.of_samePlace {s t : State} (h : s.Inv) (hk : SamePlace s t) : t.Inv where
  bbufWf := hk.bbuf h.bbufWf
  tbufWf := hk.tbuf h.tbufWf
  pbufWf := hk.pbuf h.pbufWf
  stopped hb := by
    obtain ⟨hph, hseq, hport⟩ := h.stopped (hk.busy ▸ hb)
    refine ⟨hk.phase.trans hph, hk.seq.trans hseq, ?_⟩
    obtain e | e := hk.port
    · exact e.trans hport
    · exact e
  running hb := by
    obtain ⟨hph, hdone, herr⟩ := h.running (hk.busy ▸ hb)
    exact ⟨by rw [hk.seq, hk.phase, hph], hk.done_false hdone, hk.err_false herr⟩
  oneEnd := fun ⟨hdone, herr⟩ => h.oneEnd ⟨hk.done hdone, hk.err herr⟩
  config hb := by
    rw [hk.params, hk.conf]
    exact h.config (hk.busy ▸ hb)
  loop hb := (h.loop (hk.busy ▸ hb)).of_eq hk.conf hk.seq hk.loop hk.lnum hk.bandCnt
  port := h.port.of_samePlace hk

/-- An idle state is consistent if its buffers are canonical and DONE and ERR are not both set (R36, R41). -/
theorem State.Inv.of_idle {s : State} (hbbuf : s.bbuf.wf = true) (htbuf : s.tbuf.wf = true) (hpbuf : s.pbuf.wf = true)
    (hend : ¬ (s.flags.done = true ∧ s.flags.err = true)) (hbusy : s.busy = false := by rfl)
    (hphase : s.phase = .idle := by rfl) (hseq : s.seq = .idle := by rfl) (hport : s.port = .idle := by rfl) :
    s.Inv where
  bbufWf := hbbuf
  tbufWf := htbuf
  pbufWf := hpbuf
  stopped _ := ⟨hphase, hseq, hport⟩
  running hb := by simp [hbusy] at hb
  oneEnd := hend
  config hb := by simp [hbusy] at hb
  loop hb := by simp [hbusy] at hb
  port := by simp only [State.PortOk, hport]

/-- A running page between its transactions, wherever it is: the part of the invariant that no position changes. -/
structure State.Page (s : State) : Prop where
  bbufWf : s.bbuf.wf = true
  tbufWf : s.tbuf.wf = true
  pbufWf : s.pbuf.wf = true
  busy : s.busy = true
  done : s.flags.done = false
  err : s.flags.err = false
  config : startCheck s.params s.conf = none
  port : s.port = .idle

theorem State.Page.of_samePage {s t : State} (h : s.Page) (hk : SamePage s t) : t.Page where
  bbufWf := hk.bbuf h.bbufWf
  tbufWf := hk.tbuf h.tbufWf
  pbufWf := hk.pbuf h.pbufWf
  busy := hk.busy.trans h.busy
  done := hk.done_false h.done
  err := hk.err_false h.err
  config := by rw [hk.params, hk.conf]; exact h.config
  port := by
    obtain e | e := hk.port
    · exact e.trans h.port
    · exact e

/-- A consistent state in which the sequencer is enabled is a running page in its place. -/
theorem State.Inv.page {s : State} (h : s.Inv) (hb : s.busy = true) (hp : s.port = .idle) : s.Page :=
  have ⟨_, hdone, herr⟩ := h.running hb
  ⟨h.bbufWf, h.tbufWf, h.pbufWf, hb, hdone, herr, h.config hb, hp⟩

theorem State.Inv.placed {s : State} (h : s.Inv) (hb : s.busy = true) : s.Placed := by
  obtain ⟨hrest, -, -⟩ := h.running hb
  refine ⟨h.loop hb, fun ph e => ?_, fun e => ?_, fun e => ?_⟩
  · rw [Seq.workPhase_of_restPhase hrest] at e
    cases e
    rfl
  · rw [e] at hrest
    cases hrest
  · rw [e] at hrest
    cases hrest

/-- A running page that rests in its place is consistent, whatever request of its own it has issued. -/
theorem State.Page.inv_of_port {s t : State} (h : s.Page) (hp : s.Placed) (hrest : s.seq.restPhase.isSome = true)
    (hport : t.PortOk) (hk : t = { s with port := t.port, txn := t.txn }) : t.Inv := by
  obtain ⟨ph, hph⟩ := Option.isSome_iff_exists.mp hrest
  have hphase : s.phase = ph := hp.phase ph (Seq.workPhase_of_restPhase hph)
  rw [hk] at hport ⊢
  exact
    { bbufWf := h.bbufWf
      tbufWf := h.tbufWf
      pbufWf := h.pbufWf
      stopped := fun hb => by simp [h.busy] at hb
      running := fun _ => ⟨by rw [hphase, hph], h.done, h.err⟩
      oneEnd := fun hboth => by simp [h.done] at hboth
      config := fun _ => h.config
      loop := fun _ => hp.loop.of_eq rfl rfl rfl rfl rfl
      port := hport }

/-- The error entry ends a page in a consistent state (R380). -/
theorem inv_raise {s : State} (e : ErrRegs) (hbbuf : s.bbuf.wf = true) (htbuf : s.tbuf.wf = true)
    (hpbuf : s.pbuf.wf = true) (hdone : s.flags.done = false) : (raise e s).Inv :=
  .of_idle hbbuf htbuf hpbuf (by simp [hdone])

/-- PageDone ends a page in a consistent state (R361). -/
theorem State.Page.inv_pageDone {s : State} (h : s.Page) : (pageDone s).Inv :=
  .of_idle h.bbufWf h.tbufWf h.pbufWf (by simp [h.err]) (hport := h.port)

/-! ### Host accesses -/

/-- A write to a configuration register sets WLOCK, or is made while no page runs (R72). -/
theorem inv_writeLocked {s : State} (h : s.Inv) (r : Reg) (v : Word) : (writeLocked r v s).Inv := by
  obtain ⟨-, e⟩ | ⟨hb, e⟩ := writeLocked_spec r v s
  · rw [e]
    exact h.of_samePlace {}
  · obtain ⟨hphase, hseq, hport⟩ := h.stopped hb
    rw [e]
    exact .of_idle h.bbufWf h.tbufWf h.pbufWf h.oneEnd hb hphase hseq hport

/-- START clears DONE and ERR before it fails or begins a page at its first position, with the counters at 0 (R203). -/
theorem inv_doStart {s : State} (h : s.Inv) : (doStart s).Inv := by
  obtain ⟨-, e⟩ | ⟨f, hb, -, e⟩ | ⟨hb, hc, e⟩ := doStart_spec s
  · rw [e]
    exact h.of_samePlace {}
  · obtain ⟨hphase, hseq, hport⟩ := h.stopped hb
    rw [e]
    exact .of_idle h.bbufWf h.tbufWf h.pbufWf (by simp [startFail]) hb hphase hseq hport
  · obtain ⟨-, -, hport⟩ := h.stopped hb
    rw [e]
    exact
      { bbufWf := h.bbufWf
        tbufWf := h.tbufWf
        pbufWf := h.pbufWf
        stopped := nofun
        running := fun _ => ⟨rfl, rfl, rfl⟩
        oneEnd := by simp
        config := fun _ => hc
        loop := fun _ => ⟨nofun, nofun, nofun, nofun, nofun, nofun, fun _ => ⟨rfl, rfl⟩, nofun⟩
        port := by simp [State.PortOk, hport] }

/-- Both resets leave an idle state (R212, R214). -/
theorem wf_forget_abandon (s : State) : (forget (abandon s)).bbuf.wf = true ∧ (forget (abandon s)).tbuf.wf = true ∧
    (forget (abandon s)).pbuf.wf = true ∧ (forget (abandon s)).port = .idle := by
  obtain ⟨taken, d, ha, -⟩ := abandon_spec s
  obtain ⟨b1, b2, b3, lv, h1, h2, h3, hf⟩ := forget_spec (abandon s)
  rw [hf, ha]
  exact ⟨h1, h2, h3, rfl⟩

theorem inv_doSreset (s : State) : (doSreset s).Inv := by
  obtain ⟨h1, h2, h3, hport⟩ := wf_forget_abandon s
  exact .of_idle h1 h2 h3 (by simp [doSreset, EventBits.clear]) (hport := hport)

theorem inv_hardReset (s : State) : (hardReset s).Inv := by
  obtain ⟨h1, h2, h3, hport⟩ := wf_forget_abandon s
  exact .of_idle h1 h2 h3 (by simp [hardReset, EventBits.clear]) (hport := hport)

theorem inv_doXpose {s : State} (h : s.Inv) : (doXpose s).Inv := by
  unfold doXpose
  split
  · exact h.of_samePlace {}
  · exact h.of_samePlace {}

theorem inv_dispatchCmd {s : State} (h : s.Inv) (w : Word) : (dispatchCmd w s).Inv := by
  unfold dispatchCmd
  split
  · exact h
  · exact inv_doStart h
  · exact inv_doXpose h
  · exact inv_doSreset s
  · exact h.of_samePlace {}

theorem inv_writeReg {s : State} (h : s.Inv) (r : Reg) (v : Word) : (writeReg r v s).Inv := by
  unfold writeReg
  split
  · exact h
  · exact h
  · exact h.of_samePlace 
      { done := fun e => (Bool.and_eq_true_iff.mp e).1, err := fun e => (Bool.and_eq_true_iff.mp e).1 }
  · obtain ⟨e, x, y, hw⟩ := writeRw_spec r v s
    rw [hw]
    exact h.of_samePlace {}
  · exact inv_writeLocked h r v
  · exact inv_dispatchCmd h v

/-- Every host instruction keeps a consistent state consistent. -/
theorem inv_exec_host {i : Instr} (hi : isUnit i = false) {s t : State} (h : s.Inv) (ht : exec i s = .next t) :
    t.Inv := by
  obtain ⟨b, rfl⟩ | ⟨r, v, rfl⟩ := exec_host_next hi ht
  · exact h.of_samePlace {}
  · exact (inv_writeReg h r v).of_samePlace {}

/-! ### The sequencer's event -/

/-- What the work of an event comes to in a consistent state. -/
def Action.Sound : Action → Prop
  | .go t => t.Page ∧ t.Placed
  | .emit i t => Sendable i ∧ t.seq.restPhase.isSome = true ∧ t.Page ∧ t.Placed
  | .read row ch t => row = BitVec.ofNat 16 (currentRow t) ∧ currentRow t < t.conf.rows ∧ ch = t.loop.ch ∧
      t.seq = .asmNext ∧ t.Page ∧ t.Placed
  | .done t => t.Inv
  | .stop _ => True

theorem seqAction_sound {s : State} (h : s.Page) (hp : s.Placed) : (seqAction s).Sound := by
  have hplaced := seqAction_placedFrom hp h.config
  have hpage := (seqAction_onward s).mono (fun _ => h.of_samePage) fun _ _ => trivial
  cases ha : seqAction s with
  | go t =>
    rw [ha] at hplaced hpage
    exact ⟨hpage, hplaced⟩
  | emit i t =>
    rw [ha] at hplaced hpage
    obtain ⟨hi, hrest, ht⟩ := hplaced
    exact ⟨hi, hrest, hpage, ht⟩
  | read row ch t =>
    rw [ha] at hplaced hpage
    obtain ⟨hrow, hlt, hch, hseq, ht⟩ := hplaced
    exact ⟨hrow, hlt, hch, hseq, hpage, ht⟩
  | done t =>
    rw [ha] at hplaced
    have ht : t = pageDone s := hplaced
    exact ht ▸ h.inv_pageDone
  | stop f => trivial

theorem seqWork_sound {s : State} (h : s.Page) (hp : s.Placed) : (seqWork s).Sound := by
  obtain hs | ⟨t, ht, e⟩ := runInternal_induction (Q := fun s => s.Page ∧ s.Placed) (R := Action.Sound)
    (fun s s' hs e => by simpa [e, Action.Sound] using seqAction_sound hs.1 hs.2)
    (fun s hs _ => seqAction_sound hs.1 hs.2) internalBound s ⟨h, hp⟩
  · exact hs
  · exact absurd e (seqWork_ne_go s t)

/-- The unit that the sequencer comes to is issued: its request is the outstanding one (R320). -/
theorem inv_exec_emit {i : Instr} {s t : State} (hi : Sendable i) (hrest : s.seq.restPhase.isSome = true) (h : s.Page)
    (hp : s.Placed) (ht : exec i s = .next t) : t.Inv := by
  obtain ⟨hwf, hunit⟩ := hi
  rw [exec_unit hunit, emitUnit_idle h.port] at ht
  cases ht
  exact h.inv_of_port hp hrest ⟨rfl, i, hwf, encode_unit hunit⟩ rfl

/-- The row that the sequencer comes to is requested: a row of the page, for the channel of its slot (R252, R253). -/
theorem inv_issueSource {row : BitVec 16} {ch : BitVec 2} {s : State} (hrow : row = BitVec.ofNat 16 (currentRow s))
    (hlt : currentRow s < s.conf.rows) (hch : ch = s.loop.ch) (hseq : s.seq = .asmNext) (h : s.Page) (hp : s.Placed) :
    (issueSource row ch s).Inv := by
  have hrows := s.conf.rows_lt
  have hnat : row.toNat = currentRow s := by
    rw [hrow, BitVec.toNat_ofNat, Nat.mod_eq_of_lt (by omega)]
  refine h.inv_of_port hp (by rw [hseq]; rfl) ⟨hseq, hnat, hnat ▸ hlt, ?_⟩ rfl
  rw [hch]
  exact hp.loop.chan (by rw [hseq]; rfl)

theorem inv_sequencerEvent {s t : State} (h : s.Inv) (ht : sequencerEvent s = .next t) : t.Inv := by
  unfold sequencerEvent at ht
  split at ht
  · cases ht
    exact h
  · next hen =>
    obtain ⟨hb, hport⟩ : s.busy = true ∧ s.port = .idle := by simpa [seqEnabled] using hen
    have hs := seqWork_sound (h.page hb hport) (h.placed hb)
    split at ht
    · cases ht
    · cases ha : seqWork s with
      | go u => exact absurd ha (seqWork_ne_go s u)
      | emit i u =>
        rw [ha] at hs ht
        obtain ⟨hi, hrest, hu, hup⟩ := hs
        exact inv_exec_emit hi hrest hu hup ht
      | read row ch u =>
        rw [ha] at hs ht
        obtain ⟨hrow, hlt, hch, hseq, hu, hup⟩ := hs
        cases ht
        exact inv_issueSource hrow hlt hch hseq hu hup
      | done u =>
        rw [ha] at hs ht
        cases ht
        exact hs
      | stop f =>
        rw [ha] at ht
        cases ht

/-! ### The ports' events -/

/-- While a transaction is outstanding a page runs, and DONE is 0 (R36, R120). -/
theorem State.Inv.done_of_port {s : State} (h : s.Inv) (hp : s.port ≠ .idle) : s.flags.done = false := by
  cases hb : s.busy with
  | false => exact absurd (h.stopped hb).2.2 hp
  | true => exact (h.running hb).2.1

theorem inv_applyRow {row : BitVec 16} {ch : BitVec 2} {r : RowResponse} {s t : State} (h : s.Inv)
    (hdone : s.flags.done = false) (ht : applyRow row ch r s = .next t) : t.Inv := by
  have hstore (d : List Byte) : (storeRow d { s with port := .idle }).Inv :=
    h.of_samePlace { bbuf := fun hb => Memory.wf_writeRange hb _ _, port := .inr rfl }
  obtain ⟨d, -, -, rfl⟩ | ⟨-, rfl⟩ | ⟨-, rfl⟩ := applyRow_next ht
  · exact hstore d
  · exact hstore _
  · exact inv_raise _ h.bbufWf h.tbufWf h.pbufWf hdone

theorem inv_sourceEvent {tag : Nat} {r : RowResponse} {s t : State} (h : s.Inv) (ht : sourceEvent tag r s = .next t) :
    t.Inv := by
  unfold sourceEvent at ht
  split at ht
  · next hp =>
    split at ht
    · exact inv_applyRow h (h.done_of_port (by simp [hp])) ht
    · cases ht
      exact h
  · cases ht
    exact h
  · cases ht
    exact h

/-- A unit's own effect changes LH or ADV144 only. -/
theorem samePlace_unitEffect (i : Instr) (s : State) : SamePlace s (unitEffect i s) := by
  unfold unitEffect
  split
  · unfold setLineHeight
    split
    · exact {}
    · exact {}
  · exact {}
  · exact {}

/-- The answered unit: the request is waiting no more; a short write ends the page (R320, R378). -/
theorem inv_exec_answered {i : Instr} {tag k : Nat} {raw : Bool} {bytes : List Byte} {s t : State} (h : s.Inv)
    (hdone : s.flags.done = false) (hi : isUnit i = true) (ht : exec i (answered tag raw bytes k s) = .next t) :
    t.Inv := by
  rw [exec_unit hi] at ht
  obtain ⟨hp, -⟩ | ⟨tag', hp, -⟩ | ⟨tag', k', -, hc⟩ := emitUnit_next ht
  · cases hp
  · cases hp
  · obtain ⟨-, rfl⟩ | ⟨-, rfl⟩ := completeEmit_next hc
    · exact inv_raise _ h.bbufWf h.tbufWf h.pbufWf hdone
    · have hacc : (acceptBytes (wireBytes i) k' (answered tag raw bytes k s)).Inv := h.of_samePlace { port := .inr rfl }
      exact hacc.of_samePlace (samePlace_unitEffect i _)

theorem inv_sinkEvent {tag k : Nat} {s t : State} (h : s.Inv) (ht : sinkEvent tag k s = .next t) : t.Inv := by
  unfold sinkEvent at ht
  split at ht
  · next hp =>
    split at ht
    · split at ht
      · next hd => exact inv_exec_answered h (h.done_of_port (by simp [hp])) (isUnit_of_decodeWire hd) ht
      · cases ht
    · cases ht
      exact h
  · cases ht
    exact h
  · cases ht
    exact h

/-! ### Every event -/

theorem inv_applyEvent {e : Event} {s t : State} (h : s.Inv) (ht : applyEvent e s = .next t) : t.Inv := by
  cases e with
  | host a => exact inv_exec_host (isUnit_decodeBus a) h ht
  | sequencer => exact inv_sequencerEvent h ht
  | source tag r => exact inv_sourceEvent h ht
  | sink tag k => exact inv_sinkEvent h ht
  | hardReset =>
    cases ht
    exact inv_hardReset s

/-- A step is the sequencer's event when no event is listed, else the first event listed, taken off the list. -/
theorem step_next {s t : State} (h : step s = .next t) :
    (s.inbox = [] ∧ sequencerEvent s = .next t) ∨
      ∃ e rest, s.inbox = e :: rest ∧ applyEvent e { s with inbox := rest } = .next t := by
  unfold step takeEvent at h
  split at h
  · next hi => exact .inl ⟨hi, h⟩
  · next e rest hi => exact .inr ⟨e, rest, hi, h⟩

/-- Settles O59: the part of the invariant that no position changes is kept by `seqAction_onward`, the loop variables by
`seqAction_placedFrom`, and what is issued, answered, reset or raised by the lemma of each event. -/
theorem everyStepKeepsTheStateConsistent : Obligations.EveryStepKeepsTheStateConsistent := by
  intro s t h ht
  obtain ⟨-, ht⟩ | ⟨e, rest, -, ht⟩ := step_next ht
  · exact inv_sequencerEvent h ht
  · exact inv_applyEvent (s := { s with inbox := rest }) (h.of_samePlace {}) ht

/-! ### The configuration while a page runs (R72, R125) -/

/-- No command changes the configuration, SRESET included (R212). -/
theorem dispatchCmd_conf (w : Word) (s : State) : (dispatchCmd w s).conf = s.conf := by
  unfold dispatchCmd
  split
  · rfl
  · obtain ⟨-, e⟩ | ⟨f, -, -, e⟩ | ⟨-, -, e⟩ := doStart_spec s
    all_goals
      rw [e]
      rfl
  · unfold doXpose
    split
    · rfl
    · rfl
  · obtain ⟨taken, d, ha, -⟩ := abandon_spec s
    show (abandon s).conf = s.conf
    rw [ha]
  · rfl

/-- While BUSY = 1 no register write changes it (R72). -/
theorem writeReg_conf {s : State} (hb : s.busy = true) (r : Reg) (v : Word) : (writeReg r v s).conf = s.conf := by
  unfold writeReg
  split
  · rfl
  · rfl
  · rfl
  · obtain ⟨e, x, y, hw⟩ := writeRw_spec r v s
    rw [hw]
  · rw [writeLocked_busy hb]
  · exact dispatchCmd_conf v s

/-- Emit never changes it: it issues, waits, ends the page, or has the unit's own effect (R320). -/
theorem emitUnit_conf {i : Instr} {s t : State} (h : emitUnit (isRaw i) (wireBytes i) (unitEffect i) s = .next t) :
    t.conf = s.conf := by
  obtain ⟨-, rfl⟩ | ⟨tag, -, rfl⟩ | ⟨tag, k, -, hc⟩ := emitUnit_next h
  · rfl
  · rfl
  · obtain ⟨-, rfl⟩ | ⟨-, rfl⟩ := completeEmit_next hc
    · rfl
    · exact (samePlace_unitEffect i _).conf

/-- While BUSY = 1 no instruction changes the configuration. -/
theorem exec_conf {i : Instr} {s t : State} (hb : s.busy = true) (h : exec i s = .next t) : t.conf = s.conf := by
  cases hi : isUnit i with
  | true =>
    rw [exec_unit hi] at h
    exact emitUnit_conf h
  | false =>
    obtain ⟨b, rfl⟩ | ⟨r, v, rfl⟩ := exec_host_next hi h
    · rfl
    · exact writeReg_conf hb r v

theorem sequencerEvent_conf {s t : State} (hb : s.busy = true) (h : sequencerEvent s = .next t) : t.conf = s.conf := by
  have hwork := seqWork_onward s
  unfold sequencerEvent at h
  split at h
  · cases h
    rfl
  · split at h
    · cases h
    · cases ha : seqWork s with
      | go u => exact absurd ha (seqWork_ne_go s u)
      | emit i u =>
        rw [ha] at hwork h
        have hu : SamePage s u := hwork
        exact (exec_conf (hu.busy.trans hb) h).trans hu.conf
      | read row ch u =>
        rw [ha] at hwork h
        have hu : SamePage s u := hwork
        cases h
        exact hu.conf
      | done u =>
        rw [ha] at hwork h
        cases h
        exact hwork
      | stop f =>
        rw [ha] at h
        cases h

theorem sourceEvent_conf {tag : Nat} {r : RowResponse} {s t : State} (h : sourceEvent tag r s = .next t) :
    t.conf = s.conf := by
  unfold sourceEvent at h
  split at h
  · split at h
    · obtain ⟨d, -, -, rfl⟩ | ⟨-, rfl⟩ | ⟨-, rfl⟩ := applyRow_next h
      all_goals rfl
    · cases h
      rfl
  · cases h
    rfl
  · cases h
    rfl

theorem sinkEvent_conf {tag k : Nat} {s t : State} (hb : s.busy = true) (h : sinkEvent tag k s = .next t) :
    t.conf = s.conf := by
  unfold sinkEvent at h
  split at h
  · split at h
    · split at h
      · exact exec_conf (s := answered _ _ _ k s) hb h
      · cases h
    · cases h
      rfl
  · cases h
    rfl
  · cases h
    rfl

/-- Settles O55: each event but hard reset runs an instruction, the page's work or a response, and none of these changes
the configuration while BUSY = 1. -/
theorem configurationIsFixedWhileBusy : Obligations.ConfigurationIsFixedWhileBusy := by
  intro s t hb h hreset
  obtain ⟨-, h⟩ | ⟨e, rest, hi, h⟩ := step_next h
  · exact sequencerEvent_conf hb h
  · cases e with
    | host a => exact exec_conf (s := { s with inbox := rest }) hb h
    | sequencer => exact sequencerEvent_conf (s := { s with inbox := rest }) hb h
    | source tag r => exact sourceEvent_conf (s := { s with inbox := rest }) h
    | sink tag k => exact sinkEvent_conf (s := { s with inbox := rest }) hb h
    | hardReset => exact absurd hi (hreset rest)

/-! ### The units with an effect of their own (R320, R321) -/

/-- A unit that the sink accepts in full is sent and counted, and has its own effect. -/
theorem exec_accepted {i : Instr} (hi : isUnit i = true) {s : State} {tag : Nat}
    (h : s.port = .sink tag (isRaw i) (wireBytes i) (some (wireBytes i).length)) :
    exec i s = .next (unitEffect i (acceptBytes (wireBytes i) (wireBytes i).length s)) := by
  rw [exec_unit hi, emitUnit_answered h, completeEmit_full]

/-- Settles O25: the effect of `ESC 'T'` by its field, and the fields that the encoder writes. -/
theorem acceptedLineHeightSetsLh : Obligations.AcceptedLineHeightSetsLh := by
  refine ⟨fun s f tag h => ?_, fun n hn => ⟨dec2Value_dec2 hn, ?_⟩⟩
  · rw [exec_accepted (i := .escT f) rfl h]
    show Host.Outcome.next (setLineHeight f (acceptBytes [0x1B, 0x54, f.tens, f.ones] 4 s)) = _
    unfold setLineHeight
    cases dec2Value f with
    | none => rfl
    | some n => rfl
  · rw [BitVec.toNat_ofNat]
    omega

/-- Settles O26: the effect of LF is the addition of LH to ADV144. -/
theorem acceptedLineFeedAddsLh : Obligations.AcceptedLineFeedAddsLh := by
  intro s tag h
  refine ⟨_, exec_accepted (i := .lf) rfl h, ?_, rfl, rfl, rfl, rfl, rfl, rfl⟩
  show (s.prog.adv144 + s.lh.zeroExtend 32).toNat = _
  rw [BitVec.toNat_add, BitVec.zeroExtend, BitVec.toNat_setWidth_of_le (by decide)]

end Sys2Proof.Machine

/-! SUPPORT. The family of the machine's events: what each event of R121 runs, what it appends to the output stream,
which of them ends a page, and that none stops a consistent machine. -/

namespace Sys2Proof.Machine

/-! ### The reader of the wire and the units that the encoder writes (R145, R159) -/

theorem takeBytes_append (payload rest : List Byte) :
    takeBytes payload.length (payload ++ rest) = .ok (payload, rest) := by
  simp [takeBytes]

theorem takeFill_append (n : Nat) (rest : List Byte) (i : Instr) :
    takeFill n (List.replicate n 0 ++ rest) i = .ok (i, rest) := by
  simp [takeFill]

theorem takeRibbon_digit (d : BitVec 2) (rest : List Byte) :
    takeRibbon (digit d.toNat :: rest) = .ok (.escK d, rest) := by
  have cases4 : d = 0 ∨ d = 1 ∨ d = 2 ∨ d = 3 := by revert d; decide
  obtain rfl | rfl | rfl | rfl := cases4
  all_goals rfl

theorem takeDataG_append {f : Dec4} {payload : List Byte} (h : payload.length = 1 * columnCount f)
    (rest : List Byte) :
    takeDataG (f.d3 :: f.d2 :: f.d1 :: f.d0 :: (payload ++ rest)) = .ok (.escG f payload, rest) := by
  simp only [takeDataG, takeDec4, ← h, takeBytes_append]

theorem takeDataC_append {f : Dec4} {payload : List Byte} (h : payload.length = 3 * columnCount f)
    (rest : List Byte) :
    takeDataC (f.d3 :: f.d2 :: f.d1 :: f.d0 :: (payload ++ rest)) = .ok (.escC f payload, rest) := by
  simp only [takeDataC, takeDec4, ← h, takeBytes_append]

/-- The reader finds a generated unit's instruction and its end, whatever follows. -/
theorem readUnit_wireBytes_append {i : Instr} (hwf : WellFormed i) (hi : isUnit i = true) (hraw : isRaw i = false)
    (rest : List Byte) : readUnit (wireBytes i ++ rest) = .ok (i, rest) := by
  cases i with
  | escBidi | escUni | escA | escB | escE | escT | cr | lf | ff => rfl
  | escK d => exact takeRibbon_digit d rest
  | escG f payload =>
    obtain ⟨-, -, -, hlen⟩ := hwf
    exact takeDataG_append hlen rest
  | escC f payload =>
    obtain ⟨-, -, -, hlen⟩ := hwf
    exact takeDataC_append hlen rest
  | escV f => exact takeFill_append 1 rest (.escV f)
  | escU f => exact takeFill_append 3 rest (.escU f)
  | raw => cases hraw
  | _ => cases hi

/-- The decoder reads a well-formed unit back from its kind and its bytes. -/
theorem decodeWire_of_unit {i : Instr} (hwf : WellFormed i) (hi : isUnit i = true) :
    decodeWire (isRaw i) (wireBytes i) = .ok i := by
  cases hraw : isRaw i with
  | true =>
    cases i with
    | raw bytes => rfl
    | _ => cases hraw
  | false =>
    have hread := readUnit_wireBytes_append hwf hi hraw []
    rw [List.append_nil] at hread
    simp [decodeWire, hread]

/-! ### What each event runs (R121) -/

/-- A CMD word runs as the command of its OP, and its write is acknowledged (R201, R202). -/
theorem exec_decodeCmd (w : Word) (s : State) : exec (decodeCmd w) s = .next (ackWrite (dispatchCmd w s)) := by
  have hlt : (w.extractLsb' 0 4).toNat < 16 := BitVec.isLt _
  unfold decodeCmd dispatchCmd
  generalize (w.extractLsb' 0 4).toNat = op at hlt
  interval_cases op
  all_goals rfl

/-- A host access has a next state, and everything that it can be: a bus response alone, a write of a register that is
not CMD, or a command. -/
theorem hostEvent_spec (a : BusAccess) (s : State) : ∃ t, hostEvent a s = .next t ∧
    ((∃ b, t = { s with bus := b }) ∨ (∃ r v, r ≠ .cmd ∧ t = ackWrite (writeReg r v s)) ∨
      (decodeBus a = decodeCmd a.data ∧ t = ackWrite (dispatchCmd a.data s))) := by
  unfold hostEvent
  cases hw : a.write with
  | false =>
    rw [show decodeBus a = .csrr a.off by simp [decodeBus, hw]]
    cases hm : misaligned a.off with
    | false => exact ⟨_, exec_csrr_aligned hm s, .inl ⟨_, rfl⟩⟩
    | true => exact ⟨_, exec_csrr_misaligned hm s, .inl ⟨_, rfl⟩⟩
  | true =>
    by_cases hcmd : a.off = cmdOffset
    · have hd : decodeBus a = decodeCmd a.data := by simp [decodeBus, hw, hcmd]
      exact ⟨_, by rw [hd, exec_decodeCmd], .inr (.inr ⟨hd, rfl⟩)⟩
    · have hreg : Reg.at a.off ≠ .cmd := fun e => hcmd (Reg.at_injective (by decide) e)
      rw [show decodeBus a = .csrw a.off a.data by simp [decodeBus, hw, hcmd]]
      cases hm : misaligned a.off with
      | false => exact ⟨_, exec_csrw_aligned hm _ s, .inr (.inl ⟨_, _, hreg, rfl⟩)⟩
      | true => exact ⟨_, exec_csrw_misaligned hm _ s, .inl ⟨_, rfl⟩⟩

theorem hostEvent_next {a : BusAccess} {s t : State} (h : hostEvent a s = .next t) :
    (∃ b, t = { s with bus := b }) ∨ (∃ r v, r ≠ .cmd ∧ t = ackWrite (writeReg r v s)) ∨
      (decodeBus a = decodeCmd a.data ∧ t = ackWrite (dispatchCmd a.data s)) := by
  obtain ⟨u, hu, hspec⟩ := hostEvent_spec a s
  cases hu.symm.trans h
  exact hspec

section

variable {s : State} (hb : s.busy = true) (hp : s.port = .idle) (hc : startCheck s.params s.conf = none)

include hb hp hc

/-- The enabled sequencer runs the unit that its work comes to. -/
theorem sequencerEvent_emit {i : Instr} {t : State} (h : seqWork s = .emit i t) : sequencerEvent s = exec i t := by
  simp [sequencerEvent, seqEnabled, pageConfigOk, hb, hp, hc, h]

/-- The enabled sequencer issues the SourceRead that its work comes to. -/
theorem sequencerEvent_read {row : BitVec 16} {ch : BitVec 2} {t : State} (h : seqWork s = .read row ch t) :
    sequencerEvent s = .next (issueSource row ch t) := by
  simp [sequencerEvent, seqEnabled, pageConfigOk, hb, hp, hc, h]

/-- The enabled sequencer ends the page that its work comes to the end of. -/
theorem sequencerEvent_done {t : State} (h : seqWork s = .done t) : sequencerEvent s = .next t := by
  simp [sequencerEvent, seqEnabled, pageConfigOk, hb, hp, hc, h]

/-- The enabled sequencer stops where its work does. -/
theorem sequencerEvent_stop {f : Fault} (h : seqWork s = .stop f) : sequencerEvent s = .fault f := by
  simp [sequencerEvent, seqEnabled, pageConfigOk, hb, hp, hc, h]

end

theorem sequencerEvent_disabled {s : State} (h : seqEnabled s = false) : sequencerEvent s = .next s := by
  simp [sequencerEvent, h]

/-- The enabled sequencer moves only in a page that START accepted (I11). -/
theorem startCheck_of_sequencerEvent {s t : State} (hen : seqEnabled s = true) (h : sequencerEvent s = .next t) :
    startCheck s.params s.conf = none := by
  by_contra hc
  have hbad : pageConfigOk s = false := beq_false_of_ne hc
  simp [sequencerEvent, hen, hbad] at h

theorem seqEnabled_iff (s : State) : seqEnabled s = true ↔ s.busy = true ∧ s.port = .idle := by
  simp [seqEnabled]

/-- The answer to the outstanding Emit runs the unit of its bytes. -/
theorem sinkEvent_answers {s : State} {tag : Nat} {raw : Bool} {bytes : List Byte} {answer : Option Nat} {i : Instr}
    (hp : s.port = .sink tag raw bytes answer) (hd : decodeWire raw bytes = .ok i) (k : Nat) :
    sinkEvent tag k s = exec i (answered tag raw bytes k s) := by
  simp [sinkEvent, hp, hd]

/-- A step takes the first event listed. -/
theorem step_cons {s : State} {e : Event} {rest : List Event} (h : s.inbox = e :: rest) :
    step s = applyEvent e { s with inbox := rest } := by
  simp [step, takeEvent, h]

/-- A step with no event listed is the sequencer's. -/
theorem step_nil {s : State} (h : s.inbox = []) : step s = sequencerEvent s := by
  simp [step, takeEvent, h]

/-- Settles O49: the decoder of a bus access is total, and the host's event runs what it gives. -/
theorem stepRunsTheHostAccess : Obligations.StepRunsTheHostAccess := by
  intro s a rest i hi hd
  cases hd
  exact step_cons hi

/-- Settles O50: the response has the number of the outstanding transaction, so it is not ignored. -/
theorem stepRunsTheAnsweredUnit : Obligations.StepRunsTheAnsweredUnit := by
  intro s tag k raw bytes rest i hp hi hd
  rw [step_cons hi]
  exact sinkEvent_answers (s := { s with inbox := rest }) hp hd k

/-- Settles O51: both things that the enabled sequencer's work comes to on a port. -/
theorem stepRunsTheSequencersUnit : Obligations.StepRunsTheSequencersUnit := by
  intro s t rest i row ch hi hb hp hc
  rw [step_cons hi]
  exact ⟨sequencerEvent_emit (s := { s with inbox := rest }) hb hp hc,
    sequencerEvent_read (s := { s with inbox := rest }) hb hp hc⟩

theorem misaligned_eq_true {off : BitVec 8} (h : off.toNat % 4 ≠ 0) : misaligned off = true := by
  have hne : off.extractLsb' 0 2 ≠ 0 := fun e => h (by simpa [BitVec.extractLsb'_toNat] using congrArg BitVec.toNat e)
  simpa [misaligned] using hne

/-- Settles O8: the error answer of both accesses at a misaligned offset. -/
theorem misalignedAccessGetsBusError : Obligations.MisalignedAccessGetsBusError := by
  intro s off v h
  have hm := misaligned_eq_true h
  exact ⟨exec_csrr_misaligned hm s, exec_csrw_misaligned hm v s⟩

/-- Settles O41: every position leads nearer to the end of the event's work, and none is farther than the fuel. -/
theorem sequencerWorkIsBounded : Obligations.SequencerWorkIsBounded := seqWork_ne_go

/-! ### A consistent machine does not stop (R111, R116) -/

/-- At the positions that index a buffer the loop variables are in range (R81). -/
theorem State.LoopOk.inRange {s : State} (h : s.LoopOk) (hq : s.seq.inPass = true) : loopInRange s = true := by
  simp [loopInRange, h.slot (Seq.inChannel_of_inPass hq), h.pass hq]

theorem Action.ite_ne_stop {c : Prop} [Decidable c] {a b : Action} {f : Fault} (ha : a ≠ .stop f) (hb : b ≠ .stop f) :
    (if c then a else b) ≠ .stop f := by
  split
  · exact ha
  · exact hb

theorem asmRow_ne_stop {s : State} (h : loopInRange s = true) (f : Fault) : asmRow s ≠ .stop f := by
  unfold asmRow
  rw [if_neg (by simp [h])]
  exact Action.ite_ne_stop nofun nofun

theorem segSync_ne_stop {s : State} (h : loopInRange s = true) (f : Fault) : segSync s ≠ .stop f := by
  unfold segSync
  rw [if_neg (by simp [h])]
  split
  · nofun
  · exact Action.ite_ne_stop nofun nofun

theorem segData_ne_stop {s : State} (h : loopInRange s = true) (f : Fault) : segData s ≠ .stop f := by
  unfold segData
  rw [if_neg (by simp [h])]
  split
  · nofun
  · nofun

/-- No position stops a page whose loop variables agree with it. -/
theorem seqAction_ne_stop {s : State} (h : s.LoopOk) (f : Fault) : seqAction s ≠ .stop f := by
  have hrange := h.inRange
  unfold seqAction
  cases hq : s.seq with
  | asmRow => exact asmRow_ne_stop (hrange (by rw [hq]; rfl)) f
  | segSync => exact segSync_ne_stop (hrange (by rw [hq]; rfl)) f
  | segData => exact segData_ne_stop (hrange (by rw [hq]; rfl)) f
  | asmNext =>
    rw [hq] at hrange
    simp [hrange rfl]
  | initPitch | chanBegin | half1Begin | softLF | ffQuirk => exact Action.ite_ne_stop nofun nofun
  | _ => nofun

/-- The work of one event of a consistent page never comes to a stop. -/
theorem seqWork_ne_stop {s : State} (h : s.Page) (hp : s.Placed) (f : Fault) : seqWork s ≠ .stop f := by
  obtain hs | ⟨t, -, e⟩ := runInternal_induction (Q := fun s => s.Page ∧ s.Placed) (R := (· ≠ .stop f))
    (fun s s' hs e => by simpa [e, Action.Sound] using seqAction_sound hs.1 hs.2)
    (fun s hs _ => seqAction_ne_stop hs.2.loop f) internalBound s ⟨h, hp⟩
  · exact hs
  · exact absurd e (seqWork_ne_go s t)

theorem sequencerEvent_total {s : State} (h : s.Inv) : ∃ t, sequencerEvent s = .next t := by
  cases hen : seqEnabled s with
  | false => exact ⟨s, sequencerEvent_disabled hen⟩
  | true =>
    obtain ⟨hb, hp⟩ := (seqEnabled_iff s).mp hen
    have hc := h.config hb
    have hsound := seqWork_sound (h.page hb hp) (h.placed hb)
    cases ha : seqWork s with
    | go u => exact absurd ha (seqWork_ne_go s u)
    | emit i u =>
      rw [ha] at hsound
      obtain ⟨⟨-, hi⟩, -, hu, -⟩ := hsound
      exact ⟨_, by rw [sequencerEvent_emit hb hp hc ha, exec_unit hi, emitUnit_idle hu.port]⟩
    | read row ch u => exact ⟨_, sequencerEvent_read hb hp hc ha⟩
    | done u => exact ⟨u, sequencerEvent_done hb hp hc ha⟩
    | stop f => exact absurd ha (seqWork_ne_stop (h.page hb hp) (h.placed hb) f)

theorem hostEvent_total (a : BusAccess) (s : State) : ∃ t, hostEvent a s = .next t := by
  obtain ⟨t, ht, -⟩ := hostEvent_spec a s
  exact ⟨t, ht⟩

/-- While a transaction is outstanding, the page that issued it runs (R120). -/
theorem State.Inv.busy_of_port {s : State} (h : s.Inv) (hp : s.port ≠ .idle) : s.busy = true := by
  by_contra hb
  obtain ⟨-, -, hport⟩ := h.stopped (by simpa using hb)
  exact hp hport

/-- A Row of W bytes is stored, in a page that START accepted (R254, R255). -/
theorem applyRow_row {s : State} (hc : startCheck s.params s.conf = none) (row : BitVec 16) (ch : BitVec 2)
    {d : List Byte} (hlen : d.length = s.conf.rowBytes) :
    applyRow row ch (.row d) s = .next (storeRow d { s with port := .idle }) := by
  simp [applyRow, pageConfigOk, hc, hlen]

/-- An EndOfPage is a row of zeros, in a page that START accepted (R255). -/
theorem applyRow_endOfPage {s : State} (hc : startCheck s.params s.conf = none) (row : BitVec 16) (ch : BitVec 2) :
    applyRow row ch .endOfPage s = .next (storeZeroRow { s with port := .idle }) := by
  simp [applyRow, pageConfigOk, hc]

/-- A response of the source that keeps its contract has a next state (R111). -/
theorem applyRow_total {s : State} (hc : startCheck s.params s.conf = none) (row : BitVec 16) (ch : BitVec 2)
    {r : RowResponse} (hlen : ∀ d, r = .row d → d.length = s.conf.rowBytes) : ∃ t, applyRow row ch r s = .next t := by
  cases r with
  | row d => exact ⟨_, applyRow_row hc row ch (hlen d rfl)⟩
  | endOfPage => exact ⟨_, applyRow_endOfPage hc row ch⟩
  | fail => exact ⟨_, rfl⟩

theorem sourceEvent_total {s : State} (h : s.Inv) {tag : Nat} {r : RowResponse}
    (hlen : ∀ d row ch, r = .row d → s.port = .source tag row ch → d.length = s.conf.rowBytes) :
    ∃ t, sourceEvent tag r s = .next t := by
  unfold sourceEvent
  split
  · next tag' row ch hp =>
    split
    · next htag =>
      subst htag
      exact applyRow_total (h.config (h.busy_of_port (by simp [hp]))) row ch fun d hd => hlen d row ch hd hp
    · exact ⟨s, rfl⟩
  · exact ⟨s, rfl⟩
  · exact ⟨s, rfl⟩

/-- A count within the unit's length completes it (R116). -/
theorem completeEmit_total {bytes : List Byte} {k : Nat} (h : k ≤ bytes.length) (eff : State → State) (s : State) :
    ∃ t, completeEmit bytes k eff s = .next t := by
  obtain hlt | rfl := Nat.lt_or_eq_of_le h
  · exact ⟨_, completeEmit_short hlt eff s⟩
  · exact ⟨_, completeEmit_full bytes eff s⟩

/-- The outstanding bytes of a consistent state decode, to a unit of their own kind and bytes (R160). -/
theorem State.Inv.decodes_outstanding {s : State} (h : s.Inv) {tag : Nat} {raw : Bool} {bytes : List Byte}
    {answer : Option Nat} (hp : s.port = .sink tag raw bytes answer) :
    ∃ i, isUnit i = true ∧ raw = isRaw i ∧ bytes = wireBytes i ∧ decodeWire raw bytes = .ok i := by
  have hport := h.port
  simp only [State.PortOk, hp] at hport
  obtain ⟨-, i, hwf, henc⟩ := hport
  have hi : isUnit i = true := by simp [isUnit, henc]
  rw [encode_unit hi] at henc
  cases henc
  exact ⟨i, hi, rfl, rfl, decodeWire_of_unit hwf hi⟩

theorem sinkEvent_total {s : State} (h : s.Inv) {tag k : Nat}
    (hk : ∀ raw bytes answer, s.port = .sink tag raw bytes answer → k ≤ bytes.length) :
    ∃ t, sinkEvent tag k s = .next t := by
  cases hp : s.port with
  | idle => exact ⟨s, by simp [sinkEvent, hp]⟩
  | source => exact ⟨s, by simp [sinkEvent, hp]⟩
  | sink tag' raw bytes answer =>
    by_cases htag : tag = tag'
    · subst htag
      obtain ⟨i, hi, rfl, rfl, hd⟩ := h.decodes_outstanding hp
      rw [sinkEvent_answers hp hd, exec_unit hi, emitUnit_answered rfl]
      exact completeEmit_total (hk _ _ _ hp) _ _
    · exact ⟨s, by simp [sinkEvent, hp, htag]⟩

theorem State.ContractKept.row_length {s : State} (h : s.ContractKept) {tag : Nat} {d : List Byte} {rest : List Event}
    {row : BitVec 16} {ch : BitVec 2} (hi : s.inbox = .source tag (.row d) :: rest) (hp : s.port = .source tag row ch) :
    d.length = s.conf.rowBytes := by
  simpa [State.ContractKept, hi, hp] using h

theorem State.ContractKept.count_le {s : State} (h : s.ContractKept) {tag k : Nat} {rest : List Event} {raw : Bool}
    {bytes : List Byte} {answer : Option Nat} (hi : s.inbox = .sink tag k :: rest)
    (hp : s.port = .sink tag raw bytes answer) : k ≤ bytes.length := by
  simpa [State.ContractKept, hi, hp] using h

/-- Settles O60: each event has a next state: the sequencer's by the page's place, a response by its contract and by
what is outstanding, a host access and hard reset always. -/
theorem stepNeverStopsUnderThePortContracts : Obligations.StepNeverStopsUnderThePortContracts := by
  intro s h hk
  cases hi : s.inbox with
  | nil =>
    rw [step_nil hi]
    exact sequencerEvent_total h
  | cons e rest =>
    have hrest : State.Inv { s with inbox := rest } := h.of_samePlace {}
    rw [step_cons hi]
    cases e with
    | host a => exact hostEvent_total a _
    | sequencer => exact sequencerEvent_total hrest
    | source tag r => exact sourceEvent_total hrest fun d row ch hd hp => hk.row_length (hd ▸ hi) hp
    | sink tag k => exact sinkEvent_total hrest fun raw bytes answer hp => hk.count_le hi hp
    | hardReset => exact ⟨_, rfl⟩

/-! ### What each event's next state can be -/

/-- What the page procedure's own work leaves as it is, up to the page's end and with it: the parameters, ERR, the port
and the output stream. -/
structure SameStream (s t : State) : Prop where
  params : t.params = s.params := by rfl
  err : t.flags.err = s.flags.err := by rfl
  port : t.port = s.port := by rfl
  out : t.out = s.out := by rfl

theorem SameStream.trans {s t u : State} (h : SameStream s t) (h' : SameStream t u) : SameStream s u where
  params := h'.params.trans h.params
  err := h'.err.trans h.err
  port := h'.port.trans h.port
  out := h'.out.trans h.out

/-- The action leaves the stream of `s` as it is, and only a wire unit is issued. -/
def Action.Quiet (s : State) : Action → Prop
  | .go t => SameStream s t
  | .emit i t => isUnit i = true ∧ SameStream s t
  | .read _ _ t => SameStream s t
  | .done t => SameStream s t
  | .stop _ => True

theorem Action.Quiet.ite {s : State} {c : Prop} [Decidable c] {a b : Action} (ha : a.Quiet s) (hb : b.Quiet s) :
    (if c then a else b).Quiet s := by
  split
  · exact ha
  · exact hb

theorem Action.Quiet.of_sameStream {s t : State} (h : SameStream s t) {a : Action} (ha : a.Quiet t) : a.Quiet s := by
  cases a with
  | emit i u => exact ⟨ha.1, h.trans ha.2⟩
  | go | read | done => exact h.trans ha
  | stop => trivial

theorem sameStream_bandTest (s : State) : SameStream s (bandTest s) := by
  unfold bandTest
  split
  · exact {}
  · exact {}

theorem sameStream_asmNext (s : State) : SameStream s (asmNext s) := by
  unfold asmNext afterPass
  split_ifs
  all_goals exact {}

theorem sameStream_afterCR (s : State) : SameStream s (afterCR s) := by
  unfold afterCR
  split_ifs
  all_goals exact {}

theorem sameStream_half1Start (s : State) : SameStream s (half1Start s) := by
  unfold half1Start
  split
  · exact {}
  · exact {}

theorem isUnit_dirUnit (c : ConfRegs) : isUnit (dirUnit c) = true := (sendable_dirUnit c).2

theorem isUnit_syncUnit (stride n : Nat) : isUnit (syncUnit stride n) = true := by
  unfold syncUnit
  split
  · rfl
  · rfl

theorem isUnit_dataUnit (stride n : Nat) (payload : List Byte) : isUnit (dataUnit stride n payload) = true := by
  unfold dataUnit
  split
  · rfl
  · rfl

theorem asmRow_quiet (s : State) : (asmRow s).Quiet s := by
  unfold asmRow
  exact .ite trivial (.ite {} {})

theorem segSync_quiet (s : State) : (segSync s).Quiet s := by
  unfold segSync
  refine .ite trivial ?_
  split
  · exact {}
  · exact .ite ⟨isUnit_syncUnit _ _, {}⟩ {}

theorem segData_quiet (s : State) : (segData s).Quiet s := by
  unfold segData
  refine .ite trivial ?_
  split
  · exact {}
  · exact ⟨isUnit_dataUnit _ _ _, {}⟩

/-- No position of the page procedure appends to the stream, raises an error or touches the port itself (R320, R380). -/
theorem seqAction_quiet (s : State) : (seqAction s).Quiet s := by
  unfold seqAction
  cases s.seq with
  | idle | pageDone | bandInit | asmBegin | asmDone | bandEnd | softCount => exact {}
  | initDir => exact ⟨isUnit_dirUnit _, {}⟩
  | initHeight | segCR | bandLF | microHeight | microLF | restHeight | restLF | softHeight | ffFF | resetDir
  | resetHeight | resetChar => exact ⟨rfl, {}⟩
  | initPitch | chanBegin | half1Begin | ffQuirk => exact .ite ⟨rfl, {}⟩ {}
  | softLF => exact .ite {} ⟨rfl, {}⟩
  | bandTest => exact sameStream_bandTest s
  | asmRow => exact asmRow_quiet s
  | asmNext => exact .ite (sameStream_asmNext s) trivial
  | segSync => exact segSync_quiet s
  | segData => exact segData_quiet s
  | afterCR => exact sameStream_afterCR s
  | half1Start => exact sameStream_half1Start s
  | resetPitch =>
    refine ⟨?_, {}⟩
    split
    · rfl
    · rfl

theorem seqWork_quiet (s : State) : (seqWork s).Quiet s := by
  obtain h | ⟨t, ht, h⟩ := runInternal_induction (Q := SameStream s) (R := Action.Quiet s)
    (fun t u ht hu => by simpa [hu, Action.Quiet] using (seqAction_quiet t).of_sameStream ht)
    (fun t ht _ => (seqAction_quiet t).of_sameStream ht) internalBound s {}
  · exact h
  · exact absurd h (seqWork_ne_go s t)

/-- The sequencer's event, everything its next state can be: nothing, if it is not enabled; else its work, after it the
request of a unit or of a row, or the page's end. -/
theorem sequencerEvent_next {s t : State} (h : sequencerEvent s = .next t) :
    t = s ∨ seqEnabled s = true ∧ ∃ u, SameStream s u ∧
      ((∃ raw bytes, t = issueEmit raw bytes u) ∨ (∃ row ch, t = issueSource row ch u) ∨ t = u) := by
  cases hen : seqEnabled s with
  | false =>
    rw [sequencerEvent_disabled hen] at h
    cases h
    exact .inl rfl
  | true =>
    obtain ⟨hb, hp⟩ := (seqEnabled_iff s).mp hen
    have hc := startCheck_of_sequencerEvent hen h
    have hquiet := seqWork_quiet s
    refine .inr ⟨rfl, ?_⟩
    cases ha : seqWork s with
    | go u => exact absurd ha (seqWork_ne_go s u)
    | emit i u =>
      rw [ha] at hquiet
      obtain ⟨hi, hu⟩ := hquiet
      rw [sequencerEvent_emit hb hp hc ha, exec_unit hi, emitUnit_idle (hu.port.trans hp)] at h
      cases h
      exact ⟨u, hu, .inl ⟨_, _, rfl⟩⟩
    | read row ch u =>
      rw [ha] at hquiet
      rw [sequencerEvent_read hb hp hc ha] at h
      cases h
      exact ⟨u, hquiet, .inr (.inl ⟨row, ch, rfl⟩)⟩
    | done u =>
      rw [ha] at hquiet
      rw [sequencerEvent_done hb hp hc ha] at h
      cases h
      exact ⟨t, hquiet, .inr (.inr rfl)⟩
    | stop f =>
      rw [sequencerEvent_stop hb hp hc ha] at h
      cases h

/-- The source's event, everything its next state can be: nothing, or its response to the outstanding SourceRead. -/
theorem sourceEvent_next {tag : Nat} {r : RowResponse} {s t : State} (h : sourceEvent tag r s = .next t) :
    t = s ∨ ∃ row ch, s.port = .source tag row ch ∧ applyRow row ch r s = .next t := by
  unfold sourceEvent at h
  split at h
  · next tag' row ch hp =>
    split at h
    · next htag => exact .inr ⟨row, ch, htag ▸ hp, h⟩
    · cases h
      exact .inl rfl
  · cases h
    exact .inl rfl
  · cases h
    exact .inl rfl

/-- The sink's event, everything its next state can be: nothing, or the outstanding unit accepted in part, which raises
WRITE, or in full, with its own effect (R320). -/
theorem sinkEvent_next {tag k : Nat} {s t : State} (h : sinkEvent tag k s = .next t) :
    t = s ∨ ∃ raw bytes answer i, s.port = .sink tag raw bytes answer ∧
      (k < bytes.length ∧ t = raiseWrite bytes.length k (acceptBytes bytes k s) ∨
        k = bytes.length ∧ t = unitEffect i (acceptBytes bytes k s)) := by
  unfold sinkEvent at h
  split at h
  · next tag' raw bytes answer hp =>
    split at h
    · next htag =>
      subst htag
      split at h
      · next i hd =>
        refine .inr ⟨raw, bytes, answer, i, hp, ?_⟩
        rw [exec_unit (isUnit_of_decodeWire hd)] at h
        obtain ⟨hp', -⟩ | ⟨tag', hp', -⟩ | ⟨tag', k', hp', hc⟩ := emitUnit_next h
        · cases hp'
        · cases hp'
        · cases hp'
          exact completeEmit_next hc
      · cases h
    · cases h
      exact .inl rfl
  · cases h
    exact .inl rfl
  · cases h
    exact .inl rfl

/-! ### The output stream (R100, R115) -/

/-- From `s` to `t` the stream grows by an initial part of the unit that is outstanding in `s`, or not at all; the
parameters stay. -/
def StreamGrows (s t : State) : Prop :=
  t.params = s.params ∧ ∃ taken : List Byte, t.out = s.out ++ taken ∧
    (taken = [] ∨ ∃ tag raw bytes answer n, s.port = .sink tag raw bytes answer ∧ taken = bytes.take n)

theorem StreamGrows.of_eq {s t : State} (hparams : t.params = s.params := by rfl) (hout : t.out = s.out := by rfl) :
    StreamGrows s t :=
  ⟨hparams, [], by simp [hout], .inl rfl⟩

/-- An abandoned unit leaves an initial part of itself, and nothing else of a reset reaches the stream (R213). -/
theorem streamGrows_forget_abandon (s : State) : StreamGrows s (forget (abandon s)) := by
  obtain ⟨taken, d, ha, htaken⟩ := abandon_spec s
  refine ⟨by rw [ha]; rfl, taken, by rw [ha]; rfl, ?_⟩
  obtain rfl | ⟨tag, raw, bytes, answer, hp, rfl⟩ := htaken
  · exact .inl rfl
  · obtain ⟨n, -, hn⟩ := abandonedBytes_take s.draws bytes
    exact .inr ⟨tag, raw, bytes, answer, n, hp, hn⟩

theorem streamGrows_dispatchCmd (w : Word) (s : State) : StreamGrows s (dispatchCmd w s) := by
  unfold dispatchCmd
  split
  · exact .of_eq
  · obtain ⟨-, e⟩ | ⟨f, -, -, e⟩ | ⟨-, -, e⟩ := doStart_spec s
    all_goals
      rw [e]
      exact .of_eq
  · unfold doXpose
    split
    · exact .of_eq
    · exact .of_eq
  · exact streamGrows_forget_abandon s
  · exact .of_eq

theorem streamGrows_writeReg (r : Reg) (v : Word) (s : State) : StreamGrows s (writeReg r v s) := by
  unfold writeReg
  split
  · exact .of_eq
  · exact .of_eq
  · exact .of_eq
  · obtain ⟨e, x, y, hw⟩ := writeRw_spec r v s
    rw [hw]
    exact .of_eq
  · obtain ⟨-, e⟩ | ⟨-, e⟩ := writeLocked_spec r v s
    all_goals
      rw [e]
      exact .of_eq
  · exact streamGrows_dispatchCmd v s

theorem streamGrows_hostEvent {a : BusAccess} {s t : State} (h : hostEvent a s = .next t) : StreamGrows s t := by
  obtain ⟨b, rfl⟩ | ⟨r, v, -, rfl⟩ | ⟨-, rfl⟩ := hostEvent_next h
  · exact .of_eq
  · exact streamGrows_writeReg r v s
  · exact streamGrows_dispatchCmd a.data s

theorem streamGrows_sequencerEvent {s t : State} (h : sequencerEvent s = .next t) : StreamGrows s t := by
  obtain rfl | ⟨-, u, hu, ⟨raw, bytes, rfl⟩ | ⟨row, ch, rfl⟩ | rfl⟩ := sequencerEvent_next h
  · exact .of_eq
  · exact .of_eq hu.params hu.out
  · exact .of_eq hu.params hu.out
  · exact .of_eq hu.params hu.out

theorem streamGrows_sourceEvent {tag : Nat} {r : RowResponse} {s t : State} (h : sourceEvent tag r s = .next t) :
    StreamGrows s t := by
  obtain rfl | ⟨row, ch, -, h⟩ := sourceEvent_next h
  · exact .of_eq
  · obtain ⟨d, -, -, rfl⟩ | ⟨-, rfl⟩ | ⟨-, rfl⟩ := applyRow_next h
    all_goals exact .of_eq

/-- A unit's own effect is on LH or ADV144, not on the stream (R321). -/
theorem sameStream_unitEffect (i : Instr) (s : State) : SameStream s (unitEffect i s) := by
  unfold unitEffect
  split
  · unfold setLineHeight
    split
    · exact {}
    · exact {}
  · exact {}
  · exact {}

theorem streamGrows_sinkEvent {tag k : Nat} {s t : State} (h : sinkEvent tag k s = .next t) : StreamGrows s t := by
  obtain rfl | ⟨raw, bytes, answer, i, hp, ⟨-, rfl⟩ | ⟨-, rfl⟩⟩ := sinkEvent_next h
  · exact .of_eq
  · exact ⟨rfl, bytes.take k, rfl, .inr ⟨tag, raw, bytes, answer, k, hp, rfl⟩⟩
  · have he := sameStream_unitEffect i (acceptBytes bytes k s)
    exact ⟨he.params, bytes.take k, he.out, .inr ⟨tag, raw, bytes, answer, k, hp, rfl⟩⟩

/-- Settles O56: the stream takes bytes in the sink's event and where a reset abandons a unit, and nowhere else. -/
theorem outputStreamIsAppendOnly : Obligations.OutputStreamIsAppendOnly := by
  intro s t h
  obtain ⟨-, h⟩ | ⟨e, rest, -, h⟩ := step_next h
  · exact streamGrows_sequencerEvent h
  · cases e with
    | host a => exact streamGrows_hostEvent (s := { s with inbox := rest }) h
    | sequencer => exact streamGrows_sequencerEvent (s := { s with inbox := rest }) h
    | source tag r => exact streamGrows_sourceEvent (s := { s with inbox := rest }) h
    | sink tag k => exact streamGrows_sinkEvent (s := { s with inbox := rest }) h
    | hardReset =>
      cases h
      exact streamGrows_forget_abandon { s with inbox := rest }

/-! ### DONE and ERR (R37, R38, R122) -/

/-- From `s` to `t` DONE is not set, and ERR only for the given cause. -/
structure EndFlags (cause : Prop) (s t : State) : Prop where
  done : t.flags.done = true → s.flags.done = true := by exact id
  err : t.flags.err = true → s.flags.err = true ∨ cause := by exact .inl

theorem endFlags_dispatchCmd (w : Word) (s : State) :
    EndFlags (decodeCmd w = .start ∧ s.busy = false ∧ startCheck s.params s.conf ≠ none) s (dispatchCmd w s) := by
  unfold dispatchCmd
  split
  · exact {}
  · next hop =>
    obtain ⟨-, e⟩ | ⟨f, hb, hc, e⟩ | ⟨-, -, e⟩ := doStart_spec s
    · rw [e]
      exact {}
    · have hstart : decodeCmd w = .start := by simp [decodeCmd, hop]
      rw [e]
      exact { done := nofun, err := fun _ => .inr ⟨hstart, hb, by simp [hc]⟩ }
    · rw [e]
      exact { done := nofun, err := nofun }
  · unfold doXpose
    split
    · exact {}
    · exact {}
  · exact { done := nofun, err := nofun }
  · exact {}

/-- The write of a register other than CMD sets neither; a write of STATUS can clear them (R35). -/
theorem endFlags_writeReg {r : Reg} (hr : r ≠ .cmd) (v : Word) (s : State) : EndFlags False s (writeReg r v s) := by
  unfold writeReg
  split
  · exact {}
  · exact {}
  · exact { done := fun h => (Bool.and_eq_true_iff.mp h).1, err := fun h => .inl (Bool.and_eq_true_iff.mp h).1 }
  · obtain ⟨e, x, y, hw⟩ := writeRw_spec r v s
    rw [hw]
    exact {}
  · obtain ⟨-, e⟩ | ⟨-, e⟩ := writeLocked_spec r v s
    all_goals
      rw [e]
      exact {}
  · next hwo =>
    cases r with
    | cmd => exact absurd rfl hr
    | _ => cases hwo

/-- A host access sets ERR by a START that fails a check (R204). -/
theorem endFlags_hostEvent {a : BusAccess} {s t : State} (h : hostEvent a s = .next t) :
    EndFlags (decodeBus a = .start ∧ s.busy = false ∧ startCheck s.params s.conf ≠ none) s t := by
  obtain ⟨b, rfl⟩ | ⟨r, v, hr, rfl⟩ | ⟨hd, rfl⟩ := hostEvent_next h
  · exact {}
  · have hw := endFlags_writeReg hr v s
    exact { done := hw.done, err := fun he => (hw.err he).imp_right False.elim }
  · have hw := endFlags_dispatchCmd a.data s
    exact { done := hw.done, err := by rw [hd]; exact hw.err }

/-- The source sets ERR by failing the outstanding SourceRead (R377). -/
theorem endFlags_sourceEvent {tag : Nat} {r : RowResponse} {s t : State} (h : sourceEvent tag r s = .next t) :
    EndFlags (r = .fail ∧ ∃ row ch, s.port = .source tag row ch) s t := by
  obtain rfl | ⟨row, ch, hp, h⟩ := sourceEvent_next h
  · exact {}
  · obtain ⟨d, -, -, rfl⟩ | ⟨-, rfl⟩ | ⟨hr, rfl⟩ := applyRow_next h
    · exact {}
    · exact {}
    · exact { err := fun _ => .inr ⟨hr, row, ch, hp⟩ }

/-- The sink sets ERR by a short count for the outstanding Emit (R378). -/
theorem endFlags_sinkEvent {tag k : Nat} {s t : State} (h : sinkEvent tag k s = .next t) :
    EndFlags (∃ raw bytes answer, s.port = .sink tag raw bytes answer ∧ k < bytes.length) s t := by
  obtain rfl | ⟨raw, bytes, answer, i, hp, ⟨hk, rfl⟩ | ⟨-, rfl⟩⟩ := sinkEvent_next h
  · exact {}
  · exact { err := fun _ => .inr ⟨raw, bytes, answer, hp, hk⟩ }
  · have he := samePlace_unitEffect i (acceptBytes bytes k s)
    exact { done := he.done, err := fun h => .inl (he.err h) }

/-- The sequencer's event sets DONE only where it is enabled, and ERR never (R122). -/
theorem endFlags_sequencerEvent {s t : State} (h : sequencerEvent s = .next t) :
    (s.flags.done = false → t.flags.done = true → s.busy = true ∧ s.port = .idle) ∧
      (s.flags.err = false → t.flags.err ≠ true) := by
  obtain rfl | ⟨hen, u, hu, ht⟩ := sequencerEvent_next h
  · exact ⟨fun hs ht => by simp [hs] at ht, fun hs ht => by simp [hs] at ht⟩
  · have herr : t.flags.err = s.flags.err := by
      obtain ⟨raw, bytes, rfl⟩ | ⟨row, ch, rfl⟩ | rfl := ht
      all_goals exact hu.err
    exact ⟨fun _ _ => (seqEnabled_iff s).mp hen, fun hs ht => by simp [herr, hs] at ht⟩

/-- DONE stays 0 and ERR is set only for its cause. -/
theorem EndFlags.set_by {cause : Prop} {s t : State} (h : EndFlags cause s t) :
    (s.flags.done = false → t.flags.done ≠ true) ∧ (s.flags.err = false → t.flags.err = true → cause) :=
  ⟨fun hs ht => by simp [h.done ht] at hs, fun hs ht => (h.err ht).resolve_left (by simp [hs])⟩

/-- Settles O57: what each event can set, by the event. -/
theorem doneAndErrAreSetOnlyByTheirEvents : Obligations.DoneAndErrAreSetOnlyByTheirEvents := by
  intro s t h
  obtain ⟨hi, h⟩ | ⟨e, rest, hi, h⟩ := step_next h
  · obtain ⟨hdone, herr⟩ := endFlags_sequencerEvent h
    refine ⟨fun hs ht => ?_, fun hs ht => absurd ht (herr hs)⟩
    obtain ⟨hb, hp⟩ := hdone hs ht
    exact ⟨hb, hp, .inl hi⟩
  · cases e with
    | host a =>
      obtain ⟨hdone, herr⟩ := (endFlags_hostEvent h).set_by
      refine ⟨fun hs ht => absurd ht (hdone hs), fun hs ht => ?_⟩
      exact .inr (.inr ⟨a, rest, hi, herr hs ht⟩)
    | sequencer =>
      obtain ⟨hdone, herr⟩ := endFlags_sequencerEvent h
      refine ⟨fun hs ht => ?_, fun hs ht => absurd ht (herr hs)⟩
      obtain ⟨hb, hp⟩ := hdone hs ht
      exact ⟨hb, hp, .inr ⟨rest, hi⟩⟩
    | source tag r =>
      obtain ⟨hdone, herr⟩ := (endFlags_sourceEvent h).set_by
      refine ⟨fun hs ht => absurd ht (hdone hs), fun hs ht => ?_⟩
      obtain ⟨rfl, row, ch, hp⟩ := herr hs ht
      exact .inl ⟨tag, row, ch, rest, hp, hi⟩
    | sink tag k =>
      obtain ⟨hdone, herr⟩ := (endFlags_sinkEvent h).set_by
      refine ⟨fun hs ht => absurd ht (hdone hs), fun hs ht => ?_⟩
      obtain ⟨raw, bytes, answer, hp, hk⟩ := herr hs ht
      exact .inr (.inl ⟨tag, raw, bytes, answer, k, rest, hp, hi, hk⟩)
    | hardReset =>
      cases h
      exact ⟨fun _ => nofun, fun _ => nofun⟩

end Sys2Proof.Machine

/-! SUPPORT. The family of the encoding: the CMD word and its OP, the decimal fields, the bytes and the lengths of the
wire units, and the decoder on what the encoder and the page procedure give. -/

namespace Sys2Proof.Machine

/-! ### The CMD word (R141 to R144) -/

/-- A field at bit 0 of a word, no wider than OP, is a field of OP. -/
theorem extractLsb'_op {n : Nat} (hn : n ≤ 4) (w : Word) :
    (BitVec.ofNat 32 (w.toNat % 16)).extractLsb' 0 n = w.extractLsb' 0 n := by
  have hdvd : 2 ^ n ∣ 16 := Nat.pow_dvd_pow (n := 4) 2 hn
  have hlt : w.toNat % 16 < 2 ^ 32 := (Nat.mod_lt _ (by decide)).trans (by decide)
  apply BitVec.eq_of_toNat_eq
  rw [BitVec.extractLsb'_toNat, BitVec.extractLsb'_toNat, BitVec.toNat_ofNat, Nat.shiftRight_zero, Nat.shiftRight_zero,
    Nat.mod_eq_of_lt hlt, Nat.mod_mod_of_dvd _ hdvd]

/-- A CMD word decodes as the word that is its OP alone (R143). -/
theorem decodeCmd_op (w : Word) : decodeCmd (BitVec.ofNat 32 (w.toNat % 16)) = decodeCmd w := by
  simp only [decodeCmd, extractLsb'_op (by decide : 4 ≤ 4), extractLsb'_op (by decide : 2 ≤ 4),
    extractLsb'_op (by decide : 1 ≤ 4)]

/-- Settles O3: the word may be replaced by its OP, and each of the sixteen OPs decodes to its row. -/
theorem cmdWordDecodesByItsOpAlone : Obligations.CmdWordDecodesByItsOpAlone := by
  intro w op hop
  have hlt : op < 16 := hop ▸ Nat.mod_lt _ (by decide)
  rw [← decodeCmd_op, ← hop]
  clear hop
  interval_cases op
  all_goals decide

/-- The instructions of the five illegal rows, with the OP bits that are their operands (R142). -/
abbrev illegalRows (lo : BitVec 2) (b : BitVec 1) : List Instr :=
  [.illegal3, .illegal4to7 lo, .illegal8toB lo, .illegalCtoD b, .illegalE]

theorem decodeCmd_mem_illegalRows {w : Word} (h : 3 ≤ w.toNat % 16 ∧ w.toNat % 16 ≤ 14) :
    ∃ lo b, decodeCmd w ∈ illegalRows lo b := by
  obtain ⟨hlo, hhi⟩ := h
  refine ⟨BitVec.ofNat 2 (w.toNat % 16), BitVec.ofNat 1 (w.toNat % 16), ?_⟩
  rw [← decodeCmd_op]
  generalize w.toNat % 16 = op at hlo hhi ⊢
  interval_cases op
  all_goals decide

theorem decodeCmd_mem_legalRows {w : Word} (h : ¬ (3 ≤ w.toNat % 16 ∧ w.toNat % 16 ≤ 14)) :
    decodeCmd w ∈ [Instr.nop, .start, .xpose, .sreset] := by
  have hop : w.toNat % 16 = 0 ∨ w.toNat % 16 = 1 ∨ w.toNat % 16 = 2 ∨ w.toNat % 16 = 15 := by omega
  rw [← decodeCmd_op]
  obtain e | e | e | e := hop
  all_goals
    rw [e]
    decide

/-- Every illegal row's instruction sets CMDERR and nothing else (R142). -/
theorem exec_illegalRows {i : Instr} {lo : BitVec 2} {b : BitVec 1} (hi : i ∈ illegalRows lo b) (s : State) :
    exec i s = .next (ackWrite (setCmdErr s)) := by
  simp only [List.mem_cons, List.not_mem_nil, or_false] at hi
  obtain rfl | rfl | rfl | rfl | rfl := hi
  all_goals rfl

/-- A write at CMD's offset is the command of its word (R201, R202). -/
theorem exec_csrw_cmdOffset (w : Word) (s : State) : exec (.csrw 0x04 w) s = exec (decodeCmd w) s := by
  rw [exec_csrw_aligned (by decide), exec_decodeCmd]
  rfl

/-- Settles O15: an illegal OP's word decodes to an illegal row, whose meaning is CMDERR alone. -/
theorem illegalOpsSetCmdErrOnly : Obligations.IllegalOpsSetCmdErrOnly := by
  refine ⟨fun s i lo b hi => exec_illegalRows hi s, fun w => ⟨fun hop s => ?_, decodeCmd_mem_legalRows⟩⟩
  obtain ⟨lo, b, hmem⟩ := decodeCmd_mem_illegalRows hop
  rw [exec_csrw_cmdOffset]
  exact exec_illegalRows hmem s

/-! ### Decimal digits (R153, R154) -/

/-- A digit's byte is 0x30 and the number modulo 10. -/
theorem toNat_digit (n : Nat) : (digit n).toNat = 0x30 + n % 10 := by
  rw [digit, BitVec.toNat_ofNat]
  omega

theorem digit_of_lt {n : Nat} (h : n < 10) : digit n = BitVec.ofNat 8 (0x30 + n) := by
  rw [digit, Nat.mod_eq_of_lt h]

/-- Settles O4: each digit by its byte, and the reading back by the values of the digits. -/
theorem decimalFieldsAreAsciiDigits : Obligations.DecimalFieldsAreAsciiDigits := by
  refine ⟨fun n hn => ?_, fun n hn => ?_, rfl⟩
  · exact ⟨toNat_digit _, toNat_digit _, toNat_digit _, toNat_digit _, dec4Value_dec4 hn⟩
  · have htens : n / 10 % 10 = n / 10 := Nat.mod_eq_of_lt (by omega)
    exact ⟨(toNat_digit _).trans (by rw [htens]), toNat_digit _, dec2Value_dec2 hn⟩

/-! ### The wire units (R145 to R157) -/

theorem unitRibbon_eq (d : BitVec 2) : unitRibbon d = [0x1B, 0x4B, BitVec.ofNat 8 (0x30 + d.toNat)] := by
  have hd : d.toNat < 10 := d.isLt.trans (by decide)
  rw [unitRibbon, digit_of_lt hd]
  rfl

/-- Settles O22: every format is its bytes by definition, but for the ribbon's digit. -/
theorem wireUnitsHaveTheirFormats : Obligations.WireUnitsHaveTheirFormats :=
  ⟨rfl, rfl, rfl, rfl, rfl, rfl, rfl, rfl, unitRibbon_eq, fun _ => rfl, fun _ => ⟨rfl, rfl⟩, fun _ _ => ⟨rfl, rfl⟩⟩

theorem length_unitData (sel : Byte) (f : Dec4) (payload : List Byte) :
    (unitData sel f payload).length = 6 + payload.length := by
  rw [unitData, List.length_append]
  rfl

/-- Settles O2: the reader stops at the unit's end, and the data units are six bytes longer than their payload. -/
theorem readerFindsTheEndOfEachUnit : Obligations.ReaderFindsTheEndOfEachUnit := by
  intro i rest hwf hi hraw
  refine ⟨readUnit_wireBytes_append hwf hi hraw rest, ?_⟩
  cases i with
  | escBidi | escUni | escA | escB | escE | escK | escT | escV | escU | cr | lf | ff => rfl
  | escG f payload =>
    obtain ⟨-, -, -, hlen⟩ := hwf
    exact (length_unitData chG f payload).trans (by rw [hlen, Nat.one_mul])
  | escC f payload =>
    obtain ⟨-, -, -, hlen⟩ := hwf
    exact (length_unitData chC f payload).trans (by rw [hlen])
  | raw => cases hraw
  | _ => cases hi

/-! ### The decoder after the encoder (R145, R159, R161, R200, R201) -/

/-- An illegal row's word, its operand in the low OP bits, decodes to the row's instruction (R142). -/
theorem decode_encode_illegalRows (lo : BitVec 2) (b : BitVec 1) :
    ∀ i ∈ illegalRows lo b, decode (encode i) = .ok i := by
  revert lo b
  decide

/-- A well-formed host access is decoded back: a command by its word, a register access by its offset, which for csrw is
not CMD's. -/
theorem decode_encode_host {i : Instr} (hwf : WellFormed i) (hi : isUnit i = false) : decode (encode i) = .ok i := by
  cases i with
  | nop | start | xpose | sreset | csrr => rfl
  | illegal3 | illegalE => exact decode_encode_illegalRows 0 0 _ (by simp)
  | illegal4to7 lo | illegal8toB lo => exact decode_encode_illegalRows lo 0 _ (by simp)
  | illegalCtoD b => exact decode_encode_illegalRows 0 b _ (by simp)
  | csrw off v =>
    obtain ⟨-, hoff⟩ := hwf
    exact congrArg Except.ok (if_neg hoff)
  | _ => cases hi

/-- Settles O1: a wire unit is read back by the reader of the wire, a host access by the decoder of the bus. -/
theorem decodeOfEncodeIsIdentity : Obligations.DecodeOfEncodeIsIdentity := by
  intro i hwf
  cases hi : isUnit i with
  | true =>
    rw [encode_unit hi]
    exact decodeWire_of_unit hwf hi
  | false => exact decode_encode_host hwf hi

/-- A table word of 32 bits is a CMD word (R141, log 13). -/
theorem decodeTableWord_cmd (w : Nat) : decodeTableWord 32 w = some (decodeCmd (BitVec.ofNat 32 w)) := rfl

/-- Settles O5: the CMD words by their decoder, the units of one, two and three bytes by the reader of the wire. -/
theorem tableWordsDecodeToTheirRows : Obligations.TableWordsDecodeToTheirRows := by
  unfold Obligations.TableWordsDecodeToTheirRows
  simp only [decodeTableWord_cmd]
  decide

/-! ### The units that a running page issues (R145, R160) -/

/-- The work of a placed page comes to what some position of the page may issue, whatever is outstanding on the port. -/
theorem seqWork_placedFrom {s : State} (hc : startCheck s.params s.conf = none) (hp : s.Placed) :
    ∃ u, (seqWork s).PlacedFrom u := by
  have hend (u : State) (hu : startCheck u.params u.conf = none ∧ u.Placed) : (seqAction u).PlacedFrom u :=
    seqAction_placedFrom hu.2 hu.1
  have hgo (u v : State) (hu : startCheck u.params u.conf = none ∧ u.Placed) (ha : seqAction u = .go v) :
      startCheck v.params v.conf = none ∧ v.Placed := by
    have hplaced := hend u hu
    have hpage := seqAction_onward u
    rw [ha] at hplaced hpage
    have hk : SamePage u v := hpage
    exact ⟨by rw [hk.params, hk.conf]; exact hu.1, hplaced⟩
  obtain h | ⟨t, -, e⟩ := runInternal_induction (R := fun a => ∃ u, a.PlacedFrom u) hgo
    (fun u hu _ => ⟨u, hend u hu⟩) internalBound s ⟨hc, hp⟩
  · exact h
  · exact absurd e (seqWork_ne_go s t)

/-- Settles O42: a consistent running page is placed and its configuration accepted, and from there every position sends
only what may be sent. -/
theorem issuedUnitsAreWellFormed : Obligations.IssuedUnitsAreWellFormed := by
  intro s t i h hb hw
  obtain ⟨u, hu⟩ := seqWork_placedFrom (h.config hb) (h.placed hb)
  rw [hw] at hu
  obtain ⟨hi, -, -⟩ := hu
  exact hi

end Sys2Proof.Machine

/-! SUPPORT. The family of the host's commands: what the output of a page can depend on, the values of the registers as
the host reads them, and what each command and each reset does. -/

namespace Sys2Proof.Machine

/-! ### The page view (R215) -/

@[simp] theorem pageView_port (s : State) : s.pageView.port = s.port := rfl
@[simp] theorem pageView_seq (s : State) : s.pageView.seq = s.seq := rfl
@[simp] theorem currentBounds_pageView (s : State) : currentBounds s.pageView = currentBounds s := rfl

/-- What an action comes to, as far as a page's output can depend on it. -/
def Action.view : Action → Action
  | .go s => .go s.pageView
  | .emit i s => .emit i s.pageView
  | .read row ch s => .read row ch s.pageView
  | .done s => .done s.pageView
  | .stop f => .stop f

theorem Action.view_go {s t : State} (h : t = s.pageView) : (Action.go t).view = (Action.go s).view := by
  subst h
  rfl

/-- A choice that the page view makes in the same way has the same view if both of its sides have. -/
theorem Action.view_ite {c : Prop} [Decidable c] {a b a' b' : Action} (ha : a'.view = a.view) (hb : b'.view = b.view) :
    (if c then a' else b').view = (if c then a else b).view := by
  split
  · exact ha
  · exact hb

theorem bandTest_pageView (s : State) : bandTest s.pageView = (bandTest s).pageView := by
  unfold bandTest
  rw [apply_ite State.pageView]
  rfl

theorem afterPass_pageView (s : State) : afterPass s.pageView = (afterPass s).pageView := by
  unfold afterPass
  rw [apply_ite State.pageView]
  rfl

theorem asmNext_pageView (s : State) : asmNext s.pageView = (asmNext s).pageView := by
  unfold asmNext
  rw [apply_ite State.pageView, ← afterPass_pageView]
  rfl

theorem afterCR_pageView (s : State) : afterCR s.pageView = (afterCR s).pageView := by
  unfold afterCR
  simp only [apply_ite State.pageView]
  rfl

theorem half1Start_pageView (s : State) : half1Start s.pageView = (half1Start s).pageView := by
  unfold half1Start
  rw [apply_ite State.pageView]
  rfl

theorem asmRow_pageView (s : State) : (asmRow s.pageView).view = (asmRow s).view :=
  Action.view_ite rfl (Action.view_ite rfl rfl)

theorem segSync_pageView (s : State) : (segSync s.pageView).view = (segSync s).view := by
  unfold segSync
  refine Action.view_ite rfl ?_
  rw [currentBounds_pageView]
  cases currentBounds s with
  | none => rfl
  | some bounds => exact Action.view_ite rfl rfl

theorem segData_pageView (s : State) : (segData s.pageView).view = (segData s).view := by
  unfold segData
  refine Action.view_ite rfl ?_
  rw [currentBounds_pageView]
  cases currentBounds s with
  | none => rfl
  | some bounds => rfl

/-- What the sequencer does at a position depends on the page view alone. -/
theorem seqAction_pageView (s : State) : (seqAction s.pageView).view = (seqAction s).view := by
  unfold seqAction
  rw [pageView_seq]
  cases s.seq with
  | idle | pageDone | initDir | initHeight | segCR | bandLF | microHeight | microLF | restHeight | restLF | softHeight
  | ffFF | resetDir | resetHeight | resetPitch | resetChar => rfl
  | bandInit | asmBegin | asmDone | softCount | bandEnd => rfl
  | initPitch | chanBegin | half1Begin | softLF | ffQuirk => exact Action.view_ite rfl rfl
  | bandTest => exact Action.view_go (bandTest_pageView s)
  | afterCR => exact Action.view_go (afterCR_pageView s)
  | half1Start => exact Action.view_go (half1Start_pageView s)
  | asmRow => exact asmRow_pageView s
  | segSync => exact segSync_pageView s
  | segData => exact segData_pageView s
  | asmNext => exact Action.view_ite (Action.view_go (asmNext_pageView s)) rfl

/-- An action, and after internal work what comes next. -/
def Action.andThen (k : State → Action) : Action → Action
  | .go s => k s
  | a => a

theorem runInternal_succ (n : Nat) (s : State) : runInternal (n + 1) s = (seqAction s).andThen (runInternal n) := by
  unfold runInternal
  cases seqAction s <;> rfl

theorem Action.view_andThen {k : State → Action} (hk : ∀ s : State, (k s.pageView).view = (k s).view) (a : Action) :
    (a.view.andThen k).view = (a.andThen k).view := by
  cases a with
  | go s => exact hk s
  | emit | read | done | stop => rfl

/-- Any number of positions, from the page view, come to the same. -/
theorem runInternal_pageView (n : Nat) (s : State) : (runInternal n s.pageView).view = (runInternal n s).view := by
  induction n generalizing s with
  | zero => rfl
  | succ n ih =>
    calc (runInternal (n + 1) s.pageView).view
      _ = ((seqAction s.pageView).view.andThen (runInternal n)).view := by
        rw [runInternal_succ, Action.view_andThen ih]
      _ = ((seqAction s).view.andThen (runInternal n)).view := by rw [seqAction_pageView]
      _ = (runInternal (n + 1) s).view := by rw [runInternal_succ, Action.view_andThen ih]

/-- A choice of answers, as `Action.view_ite`. -/
theorem resultView_ite {c : Prop} [Decidable c] {a b a' b' : Result} (ha : resultView a' = resultView a)
    (hb : resultView b' = resultView b) : resultView (if c then a' else b') = resultView (if c then a else b) := by
  split
  · exact ha
  · exact hb

theorem unitEffect_pageView (i : Instr) (s : State) :
    (unitEffect i s.pageView).pageView = (unitEffect i s).pageView := by
  cases i with
  | escT f =>
    show (setLineHeight f s.pageView).pageView = (setLineHeight f s).pageView
    unfold setLineHeight
    cases dec2Value f with
    | none => rfl
    | some n => rfl
  | _ => rfl

/-- A wire unit, whatever is outstanding, does the same to the page from the page view (R320). -/
theorem exec_unit_pageView {i : Instr} (hi : isUnit i = true) (s : State) :
    resultView (exec i s.pageView) = resultView (exec i s) := by
  rw [exec_unit hi, exec_unit hi]
  unfold emitUnit
  rw [pageView_port]
  cases s.port with
  | idle => rfl
  | source tag row ch => rfl
  | sink tag raw bytes answer =>
    refine resultView_ite ?_ rfl
    cases answer with
    | none => rfl
    | some k =>
      exact resultView_ite rfl (resultView_ite rfl
        (congrArg Host.Outcome.next (unitEffect_pageView i (acceptBytes (wireBytes i) k s))))

/-- What the sequencer's event makes of its work. -/
def Action.result : Action → Result
  | .go s => .next s
  | .emit i s => exec i s
  | .read row ch s => .next (issueSource row ch s)
  | .done s => .next s
  | .stop f => .fault f

theorem sequencerEvent_eq (s : State) : sequencerEvent s =
    if seqEnabled s = false then .next s else if pageConfigOk s = false then .fault .brokenPage
    else (seqWork s).result := by
  unfold sequencerEvent
  cases seqWork s <;> rfl

/-- What the event makes of a work depends on the work's view; it issues wire units only. -/
theorem Action.result_view {s : State} {a : Action} (h : a.Quiet s) :
    resultView a.view.result = resultView a.result := by
  cases a with
  | emit i t => exact exec_unit_pageView h.1 t
  | go | read | done | stop => rfl

theorem sequencerEvent_pageView (s : State) :
    resultView (sequencerEvent s.pageView) = resultView (sequencerEvent s) := by
  rw [sequencerEvent_eq, sequencerEvent_eq]
  refine resultView_ite rfl (resultView_ite rfl ?_)
  calc resultView (seqWork s.pageView).result
    _ = resultView (seqWork s.pageView).view.result := (Action.result_view (seqWork_quiet _)).symm
    _ = resultView (seqWork s).view.result := by rw [seqWork, runInternal_pageView, ← seqWork]
    _ = resultView (seqWork s).result := Action.result_view (seqWork_quiet s)

theorem applyRow_pageView (row : BitVec 16) (ch : BitVec 2) (r : RowResponse) (s : State) :
    resultView (applyRow row ch r s.pageView) = resultView (applyRow row ch r s) := by
  cases r with
  | row d => exact resultView_ite rfl (resultView_ite rfl rfl)
  | endOfPage => exact resultView_ite rfl rfl
  | fail => rfl

theorem sourceEvent_pageView (tag : Nat) (r : RowResponse) (s : State) :
    resultView (sourceEvent tag r s.pageView) = resultView (sourceEvent tag r s) := by
  unfold sourceEvent
  rw [pageView_port]
  cases s.port with
  | source tag' row ch => exact resultView_ite (applyRow_pageView row ch r s) rfl
  | idle | sink => rfl

theorem sinkEvent_pageView (tag k : Nat) (s : State) :
    resultView (sinkEvent tag k s.pageView) = resultView (sinkEvent tag k s) := by
  unfold sinkEvent
  rw [pageView_port]
  cases s.port with
  | idle | source => rfl
  | sink tag' raw bytes answer =>
    refine resultView_ite ?_ rfl
    cases hd : decodeWire raw bytes with
    | error e => rfl
    | ok i => exact exec_unit_pageView (isUnit_of_decodeWire hd) (answered tag' raw bytes k s)

theorem abandon_pageView (s : State) : abandon s.pageView = (abandon s).pageView := by
  unfold abandon
  rw [pageView_port]
  cases s.port <;> rfl

theorem hardReset_pageView (s : State) : (hardReset s.pageView).pageView = (hardReset s).pageView := by
  unfold hardReset
  rw [abandon_pageView]
  rfl

/-- An event of the sequencer, of a port or of the reset input does the same to the page from the page view. -/
theorem applyEvent_pageView {e : Event} (he : ∀ a, e ≠ .host a) (s : State) :
    resultView (applyEvent e s.pageView) = resultView (applyEvent e s) := by
  cases e with
  | host a => exact absurd rfl (he a)
  | sequencer => exact sequencerEvent_pageView s
  | source tag r => exact sourceEvent_pageView tag r s
  | sink tag k => exact sinkEvent_pageView tag k s
  | hardReset => exact congrArg Host.Outcome.next (hardReset_pageView s)

/-- Settles O21: both states do to the page what their one page view does. -/
theorem pageOutputIgnoresHostRegisters : Obligations.PageOutputIgnoresHostRegisters := by
  intro s t e hview he
  rw [← applyEvent_pageView he s, hview, applyEvent_pageView he t]

/-! ### The registers as the host reads them (R33 to R71, R200) -/

/-- A field read as a word has the field's number. -/
theorem toNat_zeroExtend_word {n : Nat} (h : n ≤ 32) (x : BitVec n) : (x.zeroExtend 32).toNat = x.toNat :=
  BitVec.toNat_setWidth_of_le h

/-- IE as a number (R42). -/
theorem toNat_ieWord (s : State) : (ieWord s).toNat =
    2 * s.ie.done.toNat + 4 * s.ie.err.toNat + 8 * s.ie.cmdErr.toNat + 16 * s.ie.wlock.toNat := by
  unfold ieWord EventBits.word
  rw [toNat_zeroExtend_word (by decide)]
  simp only [toNat_append_eq, toNat_bit, Bool.toNat_false]
  omega

/-- ERRINFO as a number (R43). -/
theorem toNat_infoWord (e : ErrRegs) :
    e.infoWord.toNat = e.code.code.toNat + 16 * e.sub.toNat + 256 * e.chan.toNat := by
  unfold ErrRegs.infoWord
  rw [toNat_zeroExtend_word (by decide)]
  simp only [toNat_append_eq]
  omega

/-- CFG as a number (R47). -/
theorem toNat_cfgWord (c : Cfg) : c.word.toNat = c.mode.code.toNat + 16 * c.nch.toNat + 256 * c.dir.toNat +
    512 * c.hcp.toNat + 1024 * c.rls.toNat + 4096 * c.ejff.toNat := by
  unfold Cfg.word
  rw [toNat_zeroExtend_word (by decide)]
  simp only [toNat_append_eq, toNat_bit, BitVec.toNat_ofNat]
  omega

section

variable {s : State} {off c : BitVec 8}

/-- What is known of the register at an offset holds of an access to that offset. -/
theorem readReg_at {w : Word} (h : readReg s (Reg.at c) = w) (e : off = c) : readReg s (Reg.at off) = w := by
  rw [e, h]

theorem toNat_readReg_at {n : Nat} (h : (readReg s (Reg.at c)).toNat = n) (e : off = c) :
    (readReg s (Reg.at off)).toNat = n := by
  rw [e, h]

/-- A register with a single narrow field reads as the field's number. -/
theorem toNat_readReg_field {n : Nat} {x : BitVec n} (hn : n ≤ 32) (h : readReg s (Reg.at c) = x.zeroExtend 32)
    (e : off = c) : (readReg s (Reg.at off)).toNat = x.toNat := by
  rw [e, h, toNat_zeroExtend_word hn]

end

/-- Settles O7: the packed registers by their words as numbers, the narrow ones by their field, the others as they
stand. -/
theorem readAnswersTheRegisterAndChangesNothing : Obligations.ReadAnswersTheRegisterAndChangesNothing := by
  intro s off hal
  exact ⟨readReg s (Reg.at off), exec_csrr_aligned (misaligned_eq_false hal) s, readReg_at rfl, readReg_at rfl,
    toNat_readReg_at (toNat_statusWord s), toNat_readReg_at (toNat_ieWord s),
    toNat_readReg_at (toNat_infoWord s.errRegs), toNat_readReg_field (by decide) rfl, readReg_at rfl, readReg_at rfl,
    toNat_readReg_at (toNat_cfgWord s.conf.cfg),
    toNat_readReg_field (by decide) rfl, toNat_readReg_field (by decide) rfl, toNat_readReg_field (by decide) rfl,
    toNat_readReg_field (by decide) rfl, toNat_readReg_field (by decide) rfl,
    readReg_at rfl, toNat_readReg_field (by decide) rfl, readReg_at rfl, toNat_readReg_field (by decide) rfl,
    readReg_at rfl, toNat_readReg_field (by decide) rfl, readReg_at rfl, toNat_readReg_field (by decide) rfl,
    toNat_readReg_field (by decide) rfl, readReg_at rfl, readReg_at rfl, readReg_at rfl, readReg_at rfl,
    readReg_at rfl, readReg_at rfl, readReg_at rfl, readReg_at rfl, toNat_readReg_field (by decide) rfl, readReg_at rfl,
    readReg_at rfl, readReg_at rfl, readReg_at rfl, readReg_at rfl, fun h => by rw [at_reserved_offsets h]; rfl⟩

/-! ### START (R203, R204) -/

/-- CHORDER's slots are a permutation exactly when all four channels are among them (R57). -/
theorem orderIsPermutation_iff (c : ConfRegs) : orderIsPermutation c = true ↔
    [c.chOrder.extractLsb' 0 2, c.chOrder.extractLsb' 2 2, c.chOrder.extractLsb' 4 2, c.chOrder.extractLsb' 6 2].Perm
      [0#2, 1#2, 2#2, 3#2] := by
  have hsub : orderIsPermutation c = true ↔ [0#2, 1#2, 2#2, 3#2] ⊆
      [0, 1, 2, 3].map c.orderSlot := by
    simp only [orderIsPermutation, List.all_eq_true, List.any_eq_true, beq_iff_eq, List.subset_def, List.mem_map]
  have hnodup : [0#2, 1#2, 2#2, 3#2].Nodup := by decide
  rw [hsub]
  exact ⟨fun h => ((List.subperm_of_subset hnodup h).perm_of_length_le (by simp)).symm, fun h => h.symm.subset⟩

/-- The bytes of print buffer that a page needs (R203, R262). -/
theorem ConfRegs.channels_mul_regionLen (c : ConfRegs) :
    c.channels * c.regionLen = c.cfg.nch.toNat * 8 * c.passes * c.width.toNat := by
  simp only [ConfRegs.channels, ConfRegs.regionLen, ConfRegs.rowBytes]
  ring

/-- What START leaves behind, by the answer of its checks (R203, R204). -/
def startOutcome (s : State) : Option CheckFailure → State
  | some f => ackWrite (startFail f (startClear s))
  | none => ackWrite (startAccept (startClear s))

theorem exec_start_idle {s : State} (hb : s.busy = false) :
    exec .start s = .next (startOutcome s (startCheck s.params s.conf)) := by
  show Host.Outcome.next (ackWrite (doStart s)) = _
  obtain ⟨hb', -⟩ | ⟨f, -, hc, e⟩ | ⟨-, hc, e⟩ := doStart_spec s
  · simp [hb] at hb'
  · rw [e, hc]
    rfl
  · rw [e, hc]
    rfl

/-- Settles O16: the statement's checks are those of `startCheck`, one by one in its order. -/
theorem startChecksThenBeginsAPage : Obligations.StartChecksThenBeginsAPage := by
  intro s n w p h m pl hb hn hw hp hm hpl hh failed
  have hp' : p = s.conf.passes := by
    rw [hp, ConfRegs.passes]
    cases s.conf.cfg.mode <;> rfl
  have hm' : m = s.conf.cfg.mode.code.toNat := by
    rw [hm]
    cases s.conf.cfg.mode <;> rfl
  have hpl' : pl = s.conf.activePitchLen := by
    rw [hpl, ConfRegs.activePitchLen]
    cases s.conf.cfg.mode <;> rfl
  have hh' : h = s.conf.channels * s.conf.regionLen := by
    rw [hh, hn, hp', hw, ConfRegs.channels_mul_regionLen]
  have hperm := (orderIsPermutation_iff s.conf).not
  rw [Bool.not_eq_true] at hperm
  clear hp hm hpl hh
  subst hn hw hp' hm' hpl' hh'
  rw [exec_start_idle hb, startCheck]
  simp only [apply_ite (startOutcome s)]
  congr 1
  exact if_congr .rfl rfl <| if_congr .rfl rfl <| if_congr (and_congr_right fun _ => hperm) rfl <| if_congr .rfl rfl <|
    if_congr .rfl rfl <| if_congr .rfl rfl <| if_congr .rfl rfl rfl

/-! ### XPOSE (R210) -/

/-- Bit b of output byte k is bit k of input byte b (R230). -/
theorem getLsbD_transpose8 (x : Block) (k b : Fin 8) : (transpose8 x k).getLsbD b = (x b).getLsbD k := by
  simp [transpose8]

/-- Byte b of XIN1:XIN0 is byte b of the block (R63). -/
theorem getLsbD_blockOfWords (w0 w1 : Word) (b k : Fin 8) :
    (blockOfWords w0 w1 b).getLsbD k = (w1 ++ w0).getLsbD (8 * b + k) := by
  unfold blockOfWords packedByte
  rw [BitVec.getLsbD_append]
  split
  · rw [if_pos (by omega), BitVec.getLsbD_extractLsb']
    simp
  · rw [if_neg (by omega), BitVec.getLsbD_extractLsb', show 8 * (b.val - 4) + k.val = 8 * b.val + k.val - 32 by omega]
    simp

/-- Byte k of a packed block is the block's byte k (R64). -/
theorem getLsbD_words (x : Block) (k b : Fin 8) : (x.word1 ++ x.word0).getLsbD (8 * k + b) = (x k).getLsbD b := by
  have hb := b.isLt
  unfold Block.word1 Block.word0 packWord
  simp only [BitVec.getLsbD_append]
  fin_cases k
  all_goals simp (disch := omega) only [if_pos, if_neg]
  all_goals exact congrArg _ (by omega)

/-- Settles O18: the bit of XOUT is a bit of the packed block, that of the transposed block, and that of XIN. -/
theorem xposeTransposesXinIntoXout : Obligations.XposeTransposesXinIntoXout := by
  intro s hb
  have hx : doXpose s = { s with
      xout0 := (transpose8 (blockOfWords s.xin0 s.xin1)).word0
      xout1 := (transpose8 (blockOfWords s.xin0 s.xin1)).word1 } := by simp [doXpose, hb]
  refine ⟨ackWrite (doXpose s), rfl, fun k hk b hb => ?_, ?_, rfl⟩
  · rw [hx]
    calc _ = (transpose8 (blockOfWords s.xin0 s.xin1) ⟨k, hk⟩).getLsbD b := getLsbD_words _ ⟨k, hk⟩ ⟨b, hb⟩
      _ = (blockOfWords s.xin0 s.xin1 ⟨b, hb⟩).getLsbD k := getLsbD_transpose8 _ ⟨k, hk⟩ ⟨b, hb⟩
      _ = _ := getLsbD_blockOfWords _ _ ⟨b, hb⟩ ⟨k, hk⟩
  · rw [hx]
    rfl

/-! ### The resets (R212, R214, R410, R411) -/

/-- What the abandoned transaction and the unspecified contents leave of a state at either reset. -/
theorem forget_abandon_spec (s : State) :
    ∃ (taken : List Byte) (d : Nat) (b1 b2 b3 : Memory) (lv : LoopVars),
      forget (abandon s) = { s with port := .idle, out := s.out ++ taken, bbuf := b1, tbuf := b2, pbuf := b3,
                                    loop := lv, draws := d } ∧
      (taken = [] ∨ ∃ tag raw bytes answer n, s.port = .sink tag raw bytes answer ∧ n ≤ bytes.length ∧
        taken = bytes.take n) := by
  obtain ⟨taken, d, ha, htaken⟩ := abandon_spec s
  obtain ⟨b1, b2, b3, lv, -, -, -, hf⟩ := forget_spec (abandon s)
  refine ⟨taken, d + 1, b1, b2, b3, lv, by rw [hf, ha], htaken.imp_right ?_⟩
  rintro ⟨tag, raw, bytes, answer, hp, rfl⟩
  obtain ⟨n, hn, e⟩ := abandonedBytes_take s.draws bytes
  exact ⟨tag, raw, bytes, answer, n, hp, hn, e⟩

/-- Settles O19: what `forget_abandon_spec` leaves open, and the rest by the definition of SRESET. -/
theorem sresetKeepsConfigurationOnly : Obligations.SresetKeepsConfigurationOnly := by
  intro s
  obtain ⟨taken, d, b1, b2, b3, lv, hf, htaken⟩ := forget_abandon_spec s
  refine ⟨taken, d, b1, b2, b3, lv, ?_, htaken⟩
  show Host.Outcome.next (ackWrite (doSreset s)) = _
  rw [doSreset, hf]
  rfl

/-- Settles O53: what `forget_abandon_spec` leaves open, and the rest by the definition of the hard reset. -/
theorem hardResetGivesResetValues : Obligations.HardResetGivesResetValues := by
  intro s rest hi
  obtain ⟨taken, d, b1, b2, b3, lv, hf, htaken⟩ := forget_abandon_spec { s with inbox := rest }
  refine ⟨taken, d, b1, b2, b3, lv, .none, ?_, htaken⟩
  rw [step_cons hi]
  show Host.Outcome.next (hardReset { s with inbox := rest }) = _
  rw [hardReset, hf]
  rfl

/-! ### Commands and accesses that leave the page alone (R201, R205, R215) -/

/-- Settles O12: the register at 0x04 is CMD, whose write dispatches as its word decodes. -/
theorem cmdWriteRunsTheDecodedCommand : Obligations.CmdWriteRunsTheDecodedCommand :=
  fun s v => exec_csrw_cmdOffset v s

/-- Settles O14: a word of OP 0 decodes as the word 0. -/
theorem nopChangesNothing : Obligations.NopChangesNothing := by
  refine fun s => ⟨rfl, fun w hw => ?_⟩
  have hd : decodeCmd w = .nop := by
    rw [← decodeCmd_op, hw]
    rfl
  exact ⟨hd, by rw [exec_csrw_cmdOffset, hd]; rfl⟩

/-- While a page runs, a command other than SRESET does not touch it: START and XPOSE are refused (R202). -/
theorem dispatchCmd_pageView {s : State} (hb : s.busy = true) {w : Word} (hw : decodeCmd w ≠ .sreset) :
    (dispatchCmd w s).pageView = s.pageView := by
  unfold dispatchCmd
  split
  · rfl
  · rw [doStart, if_pos hb]
    rfl
  · rw [doXpose, if_pos hb]
    rfl
  · next hop => exact absurd (by simp [decodeCmd, hop]) hw
  · rfl

/-- While a page runs, the write of a register other than CMD does not touch it: the configuration is locked (R72). -/
theorem writeReg_pageView {s : State} (hb : s.busy = true) {r : Reg} (hr : r ≠ .cmd) (v : Word) :
    (writeReg r v s).pageView = s.pageView := by
  unfold writeReg
  split
  · rfl
  · rfl
  · rfl
  · obtain ⟨e, x, y, hw⟩ := writeRw_spec r v s
    rw [hw]
    rfl
  · rw [writeLocked_busy hb]
    rfl
  · next hwo =>
    cases r with
    | cmd => exact absurd rfl hr
    | _ => cases hwo

/-- Settles O20: an access is a bus response alone, the write of a register, or a command. -/
theorem hostAccessKeepsThePage : Obligations.HostAccessKeepsThePage := by
  intro s a hb ha
  obtain ⟨t, ht, hspec⟩ := hostEvent_spec a s
  refine ⟨t, ht, ?_⟩
  obtain ⟨b, rfl⟩ | ⟨r, v, hr, rfl⟩ | ⟨hd, rfl⟩ := hspec
  · rfl
  · exact writeReg_pageView hb hr v
  · exact dispatchCmd_pageView hb (hd ▸ ha)

/-! ### Late responses (R213, I5) -/

theorem sourceEvent_ignored {s : State} {tag : Nat} (h : ∀ row ch, s.port ≠ .source tag row ch) (r : RowResponse) :
    sourceEvent tag r s = .next s := by
  unfold sourceEvent
  split
  · next tag' row ch hp => exact if_neg fun e => h row ch (by rw [e, hp])
  · rfl
  · rfl

theorem sinkEvent_ignored {s : State} {tag : Nat} (h : ∀ raw bytes answer, s.port ≠ .sink tag raw bytes answer)
    (k : Nat) : sinkEvent tag k s = .next s := by
  unfold sinkEvent
  split
  · next tag' raw bytes answer hp => exact if_neg fun e => h raw bytes answer (by rw [e, hp])
  · rfl
  · rfl

/-- Settles O52: neither port's event finds a transaction of its number. -/
theorem lateResponseIsIgnored : Obligations.LateResponseIsIgnored := by
  intro s tag k r rest hsource hsink
  refine ⟨fun hi => ?_, fun hi => ?_⟩
  · rw [step_cons hi]
    exact sourceEvent_ignored (s := { s with inbox := rest }) hsource r
  · rw [step_cons hi]
    exact sinkEvent_ignored (s := { s with inbox := rest }) hsink k

end Sys2Proof.Machine

/-! SUPPORT. The family of the transposer: the bit matrix of a block, and the way of a pass from BBUF through TBUF to its
places in PBUF. -/

namespace Sys2Proof.Machine

/-! ### The bit transpose (R230 to R237) -/

/-- A block is its 64 bits. -/
theorem Block.ext_bits {x y : Block} (h : ∀ k b : Fin 8, (x k).getLsbD b = (y k).getLsbD b) : x = y :=
  funext fun k => BitVec.eq_of_getLsbD_eq fun i hi => h k ⟨i, hi⟩

/-- The transpose is the one block whose bits are the given block's across the diagonal (R230). -/
theorem transpose8_eq_of_bits {x y : Block} (h : ∀ k b : Fin 8, (x b).getLsbD k = (y k).getLsbD b) : transpose8 x = y :=
  Block.ext_bits fun k b => (getLsbD_transpose8 x k b).trans (h k b)

/-- Settles O28: the model's law of the transpose. -/
theorem transposeMovesEachBit : Obligations.TransposeMovesEachBit :=
  getLsbD_transpose8

/-- Settles O29: bit b of byte k goes to bit k of byte b, and back. -/
theorem transposeTwiceIsIdentity : Obligations.TransposeTwiceIsIdentity :=
  fun x => transpose8_eq_of_bits fun k b => getLsbD_transpose8 x b k

/-- A of R236: the transpose of the block with its bytes in reverse order. -/
def reversedTranspose (x : Block) : Block := transpose8 fun b => x (7 - b)

theorem getLsbD_reversedTranspose (x : Block) (k b : Fin 8) :
    (reversedTranspose x k).getLsbD b = (x (7 - b)).getLsbD k :=
  getLsbD_transpose8 _ k b

/-- The reversed transpose applied twice reverses the bytes and the bits (R236). -/
theorem getLsbD_reversedTranspose_twice (x : Block) (k b : Fin 8) :
    (reversedTranspose (reversedTranspose x) k).getLsbD b = (x (7 - k)).getLsbD (7 - b) := by
  have hval : (7 - b : Fin 8).val = 7 - b.val := Fin.sub_val_of_le b.le_last
  rw [getLsbD_reversedTranspose, getLsbD_reversedTranspose, hval]

/-- So it gives the one block whose bits are the given block's, rotated by 180 degrees. -/
theorem reversedTranspose_twice_eq_iff (x y : Block) :
    reversedTranspose (reversedTranspose x) = y ↔ ∀ k b : Fin 8, (y k).getLsbD b = (x (7 - k)).getLsbD (7 - b) := by
  constructor
  · rintro rfl
    exact getLsbD_reversedTranspose_twice x
  · exact fun h => Block.ext_bits fun k b => (getLsbD_reversedTranspose_twice x k b).trans (h k b).symm

/-- Settles O30: what A does twice is the rotation, of which the fixed blocks and the example are two instances. -/
theorem reversedTransposeTwiceRotates : Obligations.ReversedTransposeTwiceRotates := by
  refine ⟨fun x k b => ⟨getLsbD_reversedTranspose x k b, getLsbD_reversedTranspose_twice x k b⟩,
    fun x => reversedTranspose_twice_eq_iff x x, ?_⟩
  have hbits : ∀ k b : Fin 8, (if k = 7 then 0x80 else 0 : Byte).getLsbD b =
      (if 7 - k = 0 then 0x01 else 0 : Byte).getLsbD (7 - b) := by decide
  exact (reversedTranspose_twice_eq_iff (fun b => if b = 0 then 0x01 else 0) (fun b => if b = 7 then 0x80 else 0)).mpr hbits

/-- The bits of a byte with at most one bit set. -/
theorem getLsbD_ite_two_pow (c : Prop) [Decidable c] (j i : Fin 8) :
    (if c then BitVec.ofNat 8 (2 ^ j.val) else 0).getLsbD i = decide (c ∧ i = j) := by
  by_cases hc : c
  · rw [if_pos hc, BitVec.getLsbD_ofNat, Nat.testBit_two_pow]
    simp [hc, Fin.ext_iff, eq_comm]
  · simp [hc]

/-- Settles O31: each fixed block bit by bit, and the number of set bits as a double sum whose order does not matter. -/
theorem transposeCornerCases : Obligations.TransposeCornerCases := by
  refine ⟨transpose8_eq_of_bits fun _ _ => by simp, transpose8_eq_of_bits (by decide), transpose8_eq_of_bits (by decide),
    transpose8_eq_of_bits (by decide), transpose8_eq_of_bits (by decide), fun b k => ?_, fun x => ?_⟩
  · refine transpose8_eq_of_bits fun k' b' => ?_
    rw [getLsbD_ite_two_pow, getLsbD_ite_two_pow, decide_eq_decide]
    exact and_comm
  · simp only [getLsbD_transpose8]
    exact Finset.sum_comm

/-! ### The transposed buffer (R232, R256) -/

theorem Block.getElem?_bytes (x : Block) (k : Fin 8) : x.bytes[k.val]? = some (x k) := by
  fin_cases k <;> rfl

/-- TBUF[8j + k] is byte k of the transpose of byte-column j (R84, R232). -/
theorem read_transposeColumns (wmax : Nat) (bbuf : Memory) {tbuf : Memory} (h : tbuf.wf = true) (n : Nat) {j : Nat}
    (hj : j < n) (k : Fin 8) :
    (transposeColumns wmax bbuf n tbuf).read (8 * j + k) = transpose8 (bbufColumn wmax bbuf j) k := by
  induction n with
  | zero => omega
  | succ n ih =>
    rw [transposeColumns, Memory.read_writeRange (wf_transposeColumns wmax bbuf n h)]
    obtain hjn | rfl := Nat.lt_succ_iff_lt_or_eq.mp hj
    · rw [if_neg (by omega), ih hjn]
    · rw [if_pos (by omega), Nat.add_sub_cancel_left, Block.getElem?_bytes, Option.getD_some]

/-- TBUF[i] holds the bits of printed column i (R233 without the reversal of the rows, which is R254's). -/
theorem getLsbD_read_transposeColumns (wmax : Nat) (bbuf : Memory) {tbuf : Memory} (h : tbuf.wf = true) (n : Nat) {i : Nat}
    (hi : i < 8 * n) (b : Fin 8) :
    ((transposeColumns wmax bbuf n tbuf).read i).getLsbD b = (bbuf.read (bbufIndex wmax b (i / 8))).getLsbD (i % 8) := by
  have hk : i % 8 < 8 := Nat.mod_lt _ (by decide)
  calc _ = (transpose8 (bbufColumn wmax bbuf (i / 8)) ⟨i % 8, hk⟩).getLsbD b := by
        rw [← read_transposeColumns wmax bbuf h n (by omega) ⟨i % 8, hk⟩, Nat.div_add_mod]
    _ = _ := getLsbD_transpose8 _ ⟨i % 8, hk⟩ b

/-! ### The scatter (R257 to R262) -/

/-- No two columns of a pass have the same place. -/
theorem scatterPlace_injective (m : Mode) (w base p : Nat) : Function.Injective (scatterPlace m w base p) := by
  intro i j h
  cases m <;> simp only [scatterPlace] at h <;> omega

/-- Each column that a pass scatters stands at its place afterwards. -/
theorem read_scatterColumns_place (m : Mode) (w base p : Nat) (tbuf : Memory) {pbuf : Memory} (h : pbuf.wf = true) (n : Nat)
    {i : Nat} (hi : i < n) :
    (scatterColumns m w base p tbuf n pbuf).read (scatterPlace m w base p i) = tbuf.read i := by
  induction n with
  | zero => omega
  | succ n ih =>
    rw [scatterColumns, Memory.read_write (wf_scatterColumns m w base p tbuf n h)]
    obtain hin | rfl := Nat.lt_succ_iff_lt_or_eq.mp hi
    · rw [if_neg ((scatterPlace_injective m w base p).ne hin.ne), ih hin]
    · rw [if_pos rfl]

/-- The scatter of a pass leaves every byte that is no column's place. -/
theorem read_scatterColumns_other (m : Mode) (w base p : Nat) (tbuf : Memory) {pbuf : Memory} (h : pbuf.wf = true) (n : Nat)
    {a : Nat} (ha : ∀ i < n, a ≠ scatterPlace m w base p i) :
    (scatterColumns m w base p tbuf n pbuf).read a = pbuf.read a := by
  induction n with
  | zero => rfl
  | succ n ih =>
    rw [scatterColumns, Memory.read_write (wf_scatterColumns m w base p tbuf n h), if_neg (ha n n.lt_succ_self),
      ih fun i hi => ha i (hi.trans n.lt_succ_self)]

/-- Settles O35: the statement's places are the scatter's, and the bytes put there are TBUF's. -/
theorem passIsTransposedAndScattered : Obligations.PassIsTransposedAndScattered := by
  intro s base place htbuf hpbuf hbase hplace
  obtain rfl : place = scatterPlace s.conf.cfg.mode s.conf.rowBytes (regionBase s) s.loop.p.toNat := by
    funext i
    rw [hplace, hbase]
    rfl
  refine ⟨fun i hi b hb => ?_, fun a ha => read_scatterColumns_other _ _ _ _ _ hpbuf _ ha, rfl⟩
  calc _ = ((transposeColumns s.params.wmax s.bbuf s.conf.rowBytes s.tbuf).read i).getLsbD b :=
        congrArg (·.getLsbD b) (read_scatterColumns_place _ _ _ _ _ hpbuf _ hi)
    _ = _ := getLsbD_read_transposeColumns _ _ htbuf _ hi ⟨b, hb⟩

end Sys2Proof.Machine

/-! SUPPORT. The family of the band assembler: the rows that a band's sub-rows take, the slot of BBUF where a row is stored,
and the bytes of a region that the passes write. -/

namespace Sys2Proof.Machine

/-! ### The interleave (R251) -/

/-- The sub-row and the pass of a row of the band. -/
theorem exists_rowOffset_eq {m : Mode} {x : Nat} (hx : x < 8 * m.passes) :
    ∃ s p, s < 8 ∧ p < m.passes ∧ rowOffset m s p = x := by
  cases m with
  | low => exact ⟨x, 0, hx, Nat.one_pos, rfl⟩
  | med => exact ⟨x, 0, hx, Nat.one_pos, rfl⟩
  | high => exact ⟨x / 2, x % 2, Nat.div_lt_of_lt_mul (by rwa [mul_comm]), Nat.mod_lt _ Nat.two_pos, Nat.div_add_mod x 2⟩
  | lq => exact ⟨x % 8, x / 8, Nat.mod_lt _ (by decide), Nat.div_lt_of_lt_mul hx, Nat.mod_add_div x 8⟩

/-- No two sub-rows of a band take the same row. -/
theorem rowOffset_inj {m : Mode} {s p s' p' : Nat} (hs : s < 8) (hp : p < m.passes) (hs' : s' < 8) (hp' : p' < m.passes)
    (h : rowOffset m s p = rowOffset m s' p') : s = s' ∧ p = p' := by
  cases m <;> simp only [rowOffset, Mode.passes] at h hp hp' <;> omega

/-- No sub-row takes a row past the band. -/
theorem rowOffset_lt {m : Mode} {s p : Nat} (hs : s < 8) (hp : p < m.passes) : rowOffset m s p < 8 * m.passes := by
  cases m <;> simp only [rowOffset, Mode.passes] at hp ⊢ <;> omega

/-- Settles O32: the offsets and passes by definition; a row is its sub-row and pass by division, by 2 in HIGH and by 8 in
LQ. -/
theorem rowOffsetsCoverTheBandOnce : Obligations.RowOffsetsCoverTheBandOnce :=
  ⟨fun _ _ => ⟨rfl, rfl, rfl, rfl⟩, ⟨rfl, rfl, rfl, rfl⟩, fun _ _ =>
    ⟨exists_rowOffset_eq, fun _ _ _ _ => rowOffset_inj, fun _ _ => rowOffset_lt⟩⟩

/-! ### The row that is stored (R254, R255) -/

theorem bbufIndex_eq_add (wmax i j : Nat) : bbufIndex wmax i j = bbufIndex wmax i 0 + j := rfl

/-- Byte j of a stored row stands at BBUF[7 - s][j]. -/
theorem read_storeRow_slot {s : State} (h : s.bbuf.wf = true) {d : List Byte} {j : Nat} (hj : j < d.length) :
    (storeRow d s).bbuf.read (bbufIndex s.params.wmax (7 - s.loop.s.toNat) j) = d[j] := by
  rw [storeRow_bbuf, Memory.read_writeRange h, bbufIndex_eq_add _ _ j, if_pos (Nat.le_add_right _ _),
    Nat.add_sub_cancel_left, List.getElem?_eq_getElem hj, Option.getD_some]

/-- A stored row leaves every byte of BBUF that is not in its slot. -/
theorem read_storeRow_other {s : State} (h : s.bbuf.wf = true) {d : List Byte} {a : Nat}
    (ha : ∀ j < d.length, a ≠ bbufIndex s.params.wmax (7 - s.loop.s.toNat) j) :
    (storeRow d s).bbuf.read a = s.bbuf.read a := by
  rw [storeRow_bbuf, Memory.read_writeRange h]
  split
  · next hle =>
    obtain ⟨j, rfl⟩ := Nat.exists_eq_add_of_le hle
    have hlen : d.length ≤ j := Nat.le_of_not_lt fun hj => ha j hj rfl
    rw [Nat.add_sub_cancel_left, List.getElem?_eq_none hlen, Option.getD_none]
  · rfl

/-- Both responses that bring a row store it: the Row its bytes, the EndOfPage zeros. -/
theorem applyRow_stores {s : State} (hc : startCheck s.params s.conf = none) (row : BitVec 16) (ch : BitVec 2)
    {r : RowResponse} {d : List Byte}
    (hr : r = .row d ∨ (r = .endOfPage ∧ d = List.replicate s.conf.width.toNat 0)) (hlen : d.length = s.conf.width.toNat) :
    applyRow row ch r s = .next (storeRow d { s with port := .idle }) := by
  obtain rfl | ⟨rfl, rfl⟩ := hr
  · exact applyRow_row hc row ch hlen
  · exact applyRow_endOfPage hc row ch

/-- The response to the outstanding SourceRead is not ignored. -/
theorem sourceEvent_answers {s : State} {tag : Nat} {row : BitVec 16} {ch : BitVec 2} (h : s.port = .source tag row ch)
    (r : RowResponse) : sourceEvent tag r s = applyRow row ch r s := by
  simp [sourceEvent, h]

/-- Settles O33: the response is the outstanding SourceRead's, and its event is the storing of the row. -/
theorem rowIsStoredInTheReversedSlot : Obligations.RowIsStoredInTheReversedSlot := by
  intro s tag row ch r rest d hport hinbox hwf hc hr hlen
  refine ⟨storeRow d { s with inbox := rest, port := .idle }, ?_, fun _ hj => read_storeRow_slot hwf hj,
    fun _ ha => read_storeRow_other hwf ha, rfl, rfl, rfl⟩
  calc step s = sourceEvent tag r { s with inbox := rest } := step_cons hinbox
    _ = applyRow row ch r { s with inbox := rest } := sourceEvent_answers (s := { s with inbox := rest }) hport r
    _ = _ := applyRow_stores (s := { s with inbox := rest }) hc row ch hr hlen

/-! ### The places of the passes (R257 to R263) -/

/-- A pass writes bytes of its region only. -/
theorem scatterPlace_mem_region {m : Mode} (w base : Nat) {p i : Nat} (hp : p < m.passes) (hi : i < 8 * w) :
    base ≤ scatterPlace m w base p i ∧ scatterPlace m w base p i < base + 8 * m.passes * w := by
  cases m with
  | low | med | lq => simp only [scatterPlace, Mode.passes] at hp ⊢; omega
  | high =>
    simp only [scatterPlace, Mode.passes] at hp ⊢
    obtain rfl | rfl : p = 0 ∨ p = 1 := by omega
    all_goals omega

/-- The pass and the column that write a byte of the region. -/
theorem exists_scatterPlace_eq {m : Mode} {w base a : Nat} (hle : base ≤ a) (hlt : a < base + 8 * m.passes * w) :
    ∃ p i, p < m.passes ∧ i < 8 * w ∧ scatterPlace m w base p i = a := by
  cases m with
  | low | med =>
    simp only [scatterPlace, Mode.passes] at hlt ⊢
    exact ⟨0, a - base, by omega, by omega, by omega⟩
  | high =>
    simp only [scatterPlace, Mode.passes] at hlt ⊢
    by_cases hfirst : a - base < 8 * w
    · exact ⟨0, a - base, by omega, hfirst, by omega⟩
    · exact ⟨1, a - base - 8 * w, by omega, by omega, by omega⟩
  | lq =>
    simp only [scatterPlace, Mode.passes] at hlt ⊢
    exact ⟨(a - base) % 3, (a - base) / 3, by omega, by omega, by omega⟩

/-- No byte of the region is written twice: two passes of HIGH write its two halves, three of LQ its residues modulo 3. -/
theorem scatterPlace_inj {m : Mode} {w base p i p' i' : Nat} (hp : p < m.passes) (hi : i < 8 * w) (hp' : p' < m.passes)
    (hi' : i' < 8 * w) (h : scatterPlace m w base p i = scatterPlace m w base p' i') : p = p' ∧ i = i' := by
  obtain rfl : p = p' := by
    cases m with
    | low | med | lq => simp only [scatterPlace, Mode.passes] at h hp hp'; omega
    | high =>
      simp only [scatterPlace, Mode.passes] at h hp hp'
      obtain ⟨rfl | rfl, rfl | rfl⟩ : (p = 0 ∨ p = 1) ∧ (p' = 0 ∨ p' = 1) := by omega
      all_goals omega
  exact ⟨rfl, scatterPlace_injective m w base p h⟩

/-- Settles O36: the places are in the region, every byte of it is a place, and no two places are the same. -/
theorem passesWriteTheWholeRegion : Obligations.PassesWriteTheWholeRegion :=
  fun _ w base => ⟨fun _ _ => scatterPlace_mem_region w base, fun _ => exists_scatterPlace_eq,
    fun _ _ _ _ => scatterPlace_inj⟩

end Sys2Proof.Machine

/-! SUPPORT. The family of the trimmer and encoder: the two scans of a segment and what they find, the units of a segment
as the mode gives them, and the payload read back from PBUF. -/

namespace Sys2Proof.Machine

/-! ### The two scans of a segment (R282, R283) -/

/-- A group is zero when all its S bytes are (R282). -/
theorem groupNonzero_eq_false {pbuf : Memory} {sb stride g : Nat} :
    groupNonzero pbuf sb stride g = false ↔ ∀ k < stride, pbuf.read (sb + stride * g + k) = 0 := by
  simp [groupNonzero, List.any_eq_false]

/-- The scan from the far end finds the last index. -/
theorem find?_reverse_range_eq_some {p : Nat → Bool} {n i : Nat} :
    (List.range n).reverse.find? p = some i ↔ p i = true ∧ i < n ∧ ∀ j < n, i < j → p j = false := by
  induction n with
  | zero => simp
  | succ n ih =>
    rw [List.range_succ, List.reverse_append, List.reverse_singleton, List.singleton_append, List.find?_cons]
    cases hn : p n with
    | true =>
      constructor
      · rintro ⟨⟩
        exact ⟨hn, Nat.lt_succ_self _, fun j hj hlt => by omega⟩
      · rintro ⟨-, hi, hz⟩
        have hle : ¬ i < n := fun hlt => by simp [hz n n.lt_succ_self hlt] at hn
        exact congrArg some (by omega)
    | false =>
      refine ih.trans (and_congr_right fun hi => ?_)
      have hne : i ≠ n := fun h => by simp [← h, hi] at hn
      refine and_congr (by omega) ⟨fun hz j hj hlt => ?_, fun hz j hj => hz j (by omega)⟩
      obtain hj' | rfl : j < n ∨ j = n := by omega
      · exact hz j hj' hlt
      · exact hn

/-- The bounds of a segment are what the two scans find. -/
theorem trimBounds_eq_some_iff_find? {pbuf : Memory} {sb stride ncols blk fin : Nat} :
    trimBounds pbuf sb stride ncols = some (blk, fin) ↔
      (List.range ncols).find? (groupNonzero pbuf sb stride) = some blk ∧
      ∃ last, (List.range ncols).reverse.find? (groupNonzero pbuf sb stride) = some last ∧ last + 1 = fin := by
  unfold trimBounds
  split
  · next hblk hlast => simp [hblk, hlast]
  · next hnone =>
    simp only [reduceCtorEq, false_iff]
    rintro ⟨hblk, last, hlast, -⟩
    exact hnone _ _ hblk hlast

/-- The bounds of a segment enclose its non-zero groups, and closely (R283). -/
theorem trimBounds_eq_some_iff {pbuf : Memory} {sb stride ncols blk fin : Nat} :
    trimBounds pbuf sb stride ncols = some (blk, fin) ↔
      blk < fin ∧ fin ≤ ncols ∧ groupNonzero pbuf sb stride blk = true ∧ groupNonzero pbuf sb stride (fin - 1) = true ∧
      (∀ g < blk, groupNonzero pbuf sb stride g = false) ∧
      ∀ g < ncols, fin ≤ g → groupNonzero pbuf sb stride g = false := by
  constructor
  · intro h
    obtain ⟨hlt, hle⟩ := trimBounds_some h
    obtain ⟨hblk, last, hlast, rfl⟩ := trimBounds_eq_some_iff_find?.mp h
    obtain ⟨hfirst, -, hbefore⟩ := List.find?_range_eq_some.mp hblk
    obtain ⟨hend, -, hafter⟩ := find?_reverse_range_eq_some.mp hlast
    exact ⟨hlt, hle, hfirst, hend, fun g hg => by simpa using hbefore g hg, hafter⟩
  · rintro ⟨hlt, hle, hfirst, hend, hbefore, hafter⟩
    refine trimBounds_eq_some_iff_find?.mpr ⟨List.find?_range_eq_some.mpr ⟨hfirst, ?_, ?_⟩, fin - 1,
      find?_reverse_range_eq_some.mpr ⟨hend, by omega, fun g hg hlt' => hafter g hg (by omega)⟩, by omega⟩
    · exact List.mem_range.mpr (by omega)
    · simpa using hbefore

/-- An empty segment has no non-zero group (R283). -/
theorem trimBounds_eq_none_iff {pbuf : Memory} {sb stride ncols : Nat} :
    trimBounds pbuf sb stride ncols = none ↔ ∀ g < ncols, groupNonzero pbuf sb stride g = false := by
  constructor
  · intro h g hg
    refine eq_false_of_ne_true fun hnz => ?_
    obtain ⟨blk, hblk⟩ := Option.isSome_iff_exists.mp (List.find?_isSome.mpr ⟨g, List.mem_range.mpr hg, hnz⟩)
    obtain ⟨last, hlast⟩ := Option.isSome_iff_exists.mp
      (List.find?_isSome.mpr ⟨g, List.mem_reverse.mpr (List.mem_range.mpr hg), hnz⟩)
    have hsome := trimBounds_eq_some_iff_find?.mpr ⟨hblk, last, hlast, rfl⟩
    simp [h] at hsome
  · refine fun hz => Option.eq_none_iff_forall_ne_some.mpr fun ⟨blk, fin⟩ h => ?_
    obtain ⟨hlt, hle, hfirst, -⟩ := trimBounds_eq_some_iff.mp h
    simp [hz blk (by omega)] at hfirst

/-- Settles O37: a segment is empty or both scans find a group, the first and the last non-zero one. -/
theorem trimFindsFirstAndLastGroups : Obligations.TrimFindsFirstAndLastGroups := by
  intro pbuf sb stride ncols zero hzero
  have hz (g : Nat) : zero g ↔ groupNonzero pbuf sb stride g = false := (hzero g).trans groupNonzero_eq_false.symm
  simp only [hz, Bool.not_eq_false]
  exact ⟨trimBounds_eq_none_iff, fun _ _ => trimBounds_eq_some_iff⟩

/-! ### The units of a segment (R284 to R287) -/

/-- Three bytes to a column in LQ, one in the other modes. -/
theorem Mode.stride_eq_ite (m : Mode) : m.stride = if m = .lq then 3 else 1 := by
  cases m <;> rfl

/-- LQ's position-sync is `ESC 'U'` (R286). -/
theorem syncUnit_stride (c : ConfRegs) (n : Nat) :
    syncUnit c.stride n = if c.cfg.mode = .lq then .escU (dec4 n) else .escV (dec4 n) := by
  rw [ConfRegs.stride, Mode.stride_eq_ite, syncUnit]
  split <;> rfl

/-- LQ's data unit is `ESC 'C'` (R287). -/
theorem dataUnit_stride (c : ConfRegs) (n : Nat) (payload : List Byte) :
    dataUnit c.stride n payload = if c.cfg.mode = .lq then .escC (dec4 n) payload else .escG (dec4 n) payload := by
  rw [ConfRegs.stride, Mode.stride_eq_ite, dataUnit]
  split <;> rfl

/-- Settles O38: the three outcomes of the position's test of the segment's bounds. -/
theorem syncIsSentAboveSevenColumns : Obligations.SyncIsSentAboveSevenColumns := by
  intro s blk fin hseq hloop
  have hact : seqAction s = segSync s := by rw [seqAction, hseq]
  rw [hact, segSync, if_neg (by simp [hloop])]
  refine ⟨fun hb => ?_, fun hb hle => ?_, fun hb hle => ?_⟩ <;> rw [hb]
  · rfl
  · exact if_neg (by simp [needsSync, hle])
  · refine (if_pos (decide_eq_true hle)).trans ?_
    rw [syncUnit_stride]
    rfl

/-! ### The payload (R284, R288 to R290) -/

/-- The data unit's start, with R285's threshold as a number. -/
theorem dataStart_eq_ite (blk : Nat) : dataStart blk = if 8 ≤ blk then blk else 0 := by
  simp [dataStart, needsSync, Nat.succ_le_iff]

theorem dataStart_le (blk : Nat) : dataStart blk ≤ blk := by
  rw [dataStart_eq_ite]
  split <;> omega

/-- A byte of the payload is the byte of PBUF at its place (R288). -/
theorem getElem?_segmentPayload (s : State) {start fin k : Nat} (hk : k < s.conf.stride * (fin - start)) :
    (segmentPayload s start fin)[k]? = some (s.pbuf.read (segmentBase s + s.conf.stride * start + k)) :=
  (Memory.getElem?_readRange ..).trans (if_pos hk)

/-- Settles O39: the position's unit is the data unit of the segment's bounds, and its payload is read from PBUF. -/
theorem dataUnitCarriesTheColumns : Obligations.DataUnitCarriesTheColumns := by
  intro s blk fin start sb stride hseq hloop hb hstart hstride hsb
  obtain rfl : start = dataStart blk := hstart.trans (dataStart_eq_ite blk).symm
  obtain rfl : stride = s.conf.stride := hstride.trans (Mode.stride_eq_ite _).symm
  obtain rfl : sb = segmentBase s := hsb
  have hact : seqAction s = segData s := by rw [seqAction, hseq]
  refine ⟨segmentPayload s (dataStart blk) fin, Memory.length_readRange .., fun k => getElem?_segmentPayload s, ?_⟩
  rw [hact, segData, if_neg (by simp [hloop]), hb, ← dataUnit_stride]
  rfl

/-- Settles O40: a group outside the unit's columns is before the first or after the last non-zero group. -/
theorem trimmedSegmentRebuildsTheBand : Obligations.TrimmedSegmentRebuildsTheBand := by
  intro s blk fin g k hb hg hk
  obtain ⟨-, -, -, -, hbefore, hafter⟩ := trimBounds_eq_some_iff.mp hb
  split
  · next hin =>
    obtain ⟨hle, hlt⟩ := hin
    obtain ⟨d, rfl⟩ := Nat.exists_eq_add_of_le hle
    have hidx : s.conf.stride * d + k < s.conf.stride * (fin - dataStart blk) := by
      calc _ < s.conf.stride * (d + 1) := by rw [Nat.mul_succ]; omega
        _ ≤ _ := Nat.mul_le_mul_left _ (by omega)
    rw [Nat.add_sub_cancel_left, List.getD_eq_getElem?_getD, getElem?_segmentPayload s hidx, Option.getD_some,
      Nat.mul_add]
    simp only [Nat.add_assoc]
  · next hout =>
    have hzero : groupNonzero s.pbuf (segmentBase s) s.conf.stride g = false := by
      by_cases hlt : g < blk
      · exact hbefore g hlt
      · exact hafter g hg (by have := dataStart_le blk; omega)
    exact groupNonzero_eq_false.mp hzero k hk

end Sys2Proof.Machine

/-! SUPPORT. The family of the protocol driver: a wire unit's request and its full acceptance, and the units that the
page procedure comes to in Init, after a segment's carriage return, in both ejects and in the reset sequence. -/

namespace Sys2Proof.Machine

/-! ### Emit (R320) -/

/-- Settles O23: with the port idle, every unit's meaning is to issue its request. -/
theorem unitIssuesItsRequest : Obligations.UnitIssuesItsRequest := by
  intro s i hi hp
  rw [exec_unit hi, emitUnit_idle hp]
  rfl

/-- The bytes of a fully accepted unit are all sent and counted. -/
theorem acceptBytes_full (bytes : List Byte) (s : State) :
    acceptBytes bytes bytes.length s =
      { s with port := .idle, out := s.out ++ bytes,
               prog := { s.prog with byteCnt := s.prog.byteCnt + BitVec.ofNat 32 bytes.length } } := by
  rw [acceptBytes, List.take_length]

/-- Only `ESC 'T'` and LF have an effect of their own (R321). -/
theorem unitEffect_eq_noEffect {i : Instr} (hlf : i ≠ .lf) (ht : ∀ f, i ≠ .escT f) : unitEffect i = noEffect := by
  cases i with
  | escT f => exact absurd rfl (ht f)
  | lf => exact absurd rfl hlf
  | _ => rfl

/-- Settles O24: a unit without an effect of its own is accepted in full. -/
theorem acceptedUnitIsCountedAndSent : Obligations.AcceptedUnitIsCountedAndSent := by
  intro s i tag hi hlf ht hp
  rw [exec_accepted hi hp, unitEffect_eq_noEffect hlf ht, acceptBytes_full]
  rfl

/-! ### The sequencer's work from position to position (R121) -/

/-- The action at a known position is read off that position. -/
theorem seqAction_at {s : State} {q : Seq} (h : s.seq = q) : seqAction s = seqAction (atSeq q s) := by
  subst h
  rfl

/-- Fuel that the internal work does not use up may grow. -/
theorem runInternal_succ_of_ne_go {n : Nat} {s : State} (h : ∀ t, runInternal n s ≠ .go t) :
    runInternal (n + 1) s = runInternal n s := by
  induction n generalizing s with
  | zero => exact absurd rfl (h s)
  | succ n ih =>
    by_cases hgo : ∃ u, seqAction s = .go u
    · obtain ⟨u, hu⟩ := hgo
      rw [runInternal_go hu] at h ⊢
      rw [runInternal_go hu, ih h]
    · have hstop : ∀ u, seqAction s ≠ .go u := not_exists.mp hgo
      rw [runInternal_stop rfl hstop, runInternal_stop rfl hstop]

/-- Internal work at a position leaves the event's work that of the next position: the fuel never matters. -/
theorem seqWork_go {s u : State} (h : seqAction s = .go u) : seqWork s = seqWork u := by
  have hmore : ∀ t, runInternal 63 u ≠ .go t :=
    runInternal_ne_go (Nat.lt_of_le_of_lt (positionsLeft_le u) (by decide))
  calc seqWork s = runInternal 63 u := runInternal_go h
    _ = runInternal (63 + 1) u := (runInternal_succ_of_ne_go hmore).symm

/-- The event's work ends at the first position that is not internal. -/
theorem seqWork_stop {s : State} {a : Action} (h : seqAction s = a) (hn : ∀ t, a ≠ .go t) : seqWork s = a := by
  rw [seqWork, show internalBound = 63 + 1 from rfl]
  exact runInternal_stop h hn

theorem seqWork_emit {s t : State} {i : Instr} (h : seqAction s = .emit i t) : seqWork s = .emit i t :=
  seqWork_stop h (by simp)

theorem seqWork_go_emit {s u t : State} {i : Instr} (hgo : seqAction s = .go u) (h : seqAction u = .emit i t) :
    seqWork s = .emit i t :=
  (seqWork_go hgo).trans (seqWork_emit h)

/-! ### The cadence of a band (R342 to R347) -/

theorem channelOuter_iff (c : ConfRegs) :
    channelOuter c = true ↔ c.cfg.mode = .high ∧ c.cfg.nch = 4 ∧ c.cfg.hcp = true := by
  simp [channelOuter, colour, and_assoc]

theorem moreChannels_iff (s : State) : moreChannels s = true ↔ s.loop.ci.toNat + 1 < s.conf.cfg.nch.toNat :=
  decide_eq_true_iff

/-- Outside HIGH, the last slot's segment is followed by the band's line feed (R342). -/
theorem afterCR_bandLF {s : State} (hm : s.conf.cfg.mode ≠ .high) (hlast : ¬ moreChannels s = true) :
    afterCR s = atSeq .bandLF s := by
  rw [afterCR, if_neg hm, if_neg hlast]

/-- The micro-advance follows half 0 of each channel in CHANNEL_OUTER, else half 0 of the last one (R345, R346). -/
theorem afterCR_microHeight {s : State} (hm : s.conf.cfg.mode = .high) (hh : s.loop.h = 0)
    (h : channelOuter s.conf = true ∨ ¬ moreChannels s = true) : afterCR s = atSeq .microHeight s := by
  rw [afterCR, if_pos hm, if_pos hh, if_pos hh]
  split
  · rfl
  · next houter => exact if_neg (h.resolve_left houter)

/-- Half 1 of the last slot is followed by the band's rest, in both policies (R344). -/
theorem afterCR_restHeight {s : State} (hm : s.conf.cfg.mode = .high) (hh : s.loop.h ≠ 0)
    (hlast : ¬ moreChannels s = true) : afterCR s = atSeq .restHeight s := by
  rw [afterCR, if_pos hm, if_neg hh, if_neg hh, if_neg hlast, if_neg hlast, ite_self]

/-- With a slot left and no micro-advance due, the next slot begins: with Assemble, or with half 1 alone in HALF_OUTER's
second loop (R342, R345, R346). -/
theorem afterCR_nextChannel {s : State} (hmore : moreChannels s = true)
    (h : ¬ (s.conf.cfg.mode = .high ∧ s.loop.h = 0 ∧ channelOuter s.conf = true)) :
    ∃ q, (q = .chanBegin ∨ q = .half1Begin) ∧ afterCR s = atSeq q (nextChannel s) := by
  simp only [afterCR, if_pos hmore]
  split
  · next hm =>
    split
    · next houter => exact ⟨_, .inl rfl, if_neg fun hh => h ⟨hm, hh, houter⟩⟩
    · split
      · exact ⟨_, .inl rfl, rfl⟩
      · exact ⟨_, .inr rfl, rfl⟩
  · exact ⟨_, .inl rfl, rfl⟩

/-- A slot of a page of four channels begins with its ribbon select, in either loop over the slots (R322). -/
theorem seqAction_ribbon {s : State} (hc : s.conf.cfg.nch = 4) (hq : s.seq = .chanBegin ∨ s.seq = .half1Begin) :
    ∃ t, seqAction s = .emit (ribbonUnit s.conf s.loop.ci) t := by
  have hcolour : colour s.conf = true := beq_iff_eq.mpr hc
  obtain hq | hq := hq
  · exact ⟨_, (seqAction_at hq).trans (if_pos hcolour)⟩
  · exact ⟨_, (seqAction_at hq).trans (if_pos hcolour)⟩

/-- The ribbon select of the slot after ci, in a page of four channels (R57, R58, R322). -/
theorem ribbonUnit_succ {c : ConfRegs} (hc : c.cfg.nch = 4) {ci : BitVec 2} (h : ci.toNat + 1 < 4) :
    ribbonUnit c (ci + 1) =
      .escK (c.kDigit.extractLsb' (2 * (c.chOrder.extractLsb' (2 * (ci.toNat + 1)) 2).toNat) 2) := by
  have hci : (ci + 1).toNat = ci.toNat + 1 := by bv_omega
  simp only [ribbonUnit, ConfRegs.ribbonDigit, ConfRegs.chanId, if_pos hc, ConfRegs.orderSlot, hci]

/-- Settles O44: the position that `afterCR` leads to in each case, and that position's unit. -/
theorem cadenceAfterCarriageReturn : Obligations.CadenceAfterCarriageReturn := by
  intro s hseq
  have hgo {u : State} (h : afterCR s = u) : seqAction s = .go u := (seqAction_at hseq).trans (congrArg Action.go h)
  refine ⟨fun hm hlast => ?_, fun hm hh hdue => ?_, fun hm hh hlast => ?_, fun hc hci hnot => ?_⟩
  · rw [← moreChannels_iff] at hlast
    exact seqWork_go_emit (hgo (afterCR_bandLF hm hlast)) rfl
  · rw [← moreChannels_iff] at hdue
    have hdue : channelOuter s.conf = true ∨ ¬ moreChannels s = true :=
      hdue.imp_left fun ⟨hc, hcp⟩ => (channelOuter_iff _).mpr ⟨hm, hc, hcp⟩
    exact seqWork_go_emit (hgo (afterCR_microHeight hm hh hdue)) rfl
  · rw [← moreChannels_iff] at hlast
    exact seqWork_go_emit (hgo (afterCR_restHeight hm hh hlast)) rfl
  · have hmore : moreChannels s = true := by rw [moreChannels_iff, hc]; exact hci
    obtain ⟨q, hq, hnext⟩ := afterCR_nextChannel hmore fun ⟨hm, hh, houter⟩ =>
      have ⟨_, _, hcp⟩ := (channelOuter_iff _).mp houter
      hnot ⟨hm, hh, hcp⟩
    obtain ⟨t, ht⟩ := seqAction_ribbon (s := atSeq q (nextChannel s)) hc hq
    exact ⟨t, ribbonUnit_succ hc hci ▸ seqWork_go_emit (hgo hnext) ht⟩

/-! ### The soft eject (R352) -/

/-- The counted line feeds, as nlf holds them in its 13 bits (log 8): at most 4096, and the least number that covers what
is left of PAGELEN. -/
theorem softLineFeeds_bounds (s : State) : softLineFeeds s ≤ 4096 ∧
    s.conf.pageLen.toNat - s.prog.adv144.toNat ≤ 16 * softLineFeeds s ∧
    16 * softLineFeeds s < s.conf.pageLen.toNat - s.prog.adv144.toNat + 16 := by
  have hlen := s.conf.pageLen.isLt
  unfold softLineFeeds
  omega

theorem toNat_softLineFeeds (s : State) : (BitVec.ofNat 13 (softLineFeeds s)).toNat = softLineFeeds s := by
  obtain ⟨hle, -⟩ := softLineFeeds_bounds s
  rw [BitVec.toNat_ofNat]
  omega

/-- No line feed is counted exactly when ADV144 has reached PAGELEN. -/
theorem ofNat_softLineFeeds_eq_zero_iff (s : State) :
    BitVec.ofNat 13 (softLineFeeds s) = 0 ↔ s.conf.pageLen.toNat ≤ s.prog.adv144.toNat := by
  obtain ⟨-, hcover, hleast⟩ := softLineFeeds_bounds s
  rw [← BitVec.toNat_inj, toNat_softLineFeeds, show (0 : BitVec 13).toNat = 0 from rfl]
  omega

/-- A line feed is sent while nlf is not 0. -/
theorem seqAction_softLF_succ {s : State} (hq : s.seq = .softLF) (hn : s.loop.nlf ≠ 0) :
    seqAction s = .emit .lf { s with loop := { s.loop with nlf := s.loop.nlf - 1 } } := by
  rw [seqAction, hq]
  exact if_neg hn

/-- With nlf at 0 the line feeds are over. -/
theorem seqAction_softLF_zero {s : State} (hq : s.seq = .softLF) (hn : s.loop.nlf = 0) :
    seqAction s = .go (atSeq .resetDir s) :=
  (seqAction_at hq).trans (if_pos hn)

/-- One line feed less is left in nlf. -/
theorem toNat_nlf_pred {n : BitVec 13} (h : n ≠ 0) : (n - 1).toNat + 1 = n.toNat := by
  bv_omega

/-- Settles O46: the count of `softCount` and the tests of `softLF`, each by the action of its position. -/
theorem softEjectCoversTheRestOfThePage : Obligations.SoftEjectCoversTheRestOfThePage := by
  intro s
  have hcount (hq : s.seq = .softCount) : seqAction s = .go
      { s with seq := .softLF, loop := { s.loop with nlf := BitVec.ofNat 13 (softLineFeeds s) } } :=
    seqAction_at hq
  refine ⟨fun hq => seqWork_emit (seqAction_at hq), fun hq hdone => ?_, fun hq hleft => ?_, fun hq hn => ?_,
    fun hq hn => seqWork_go_emit (seqAction_softLF_zero hq hn) rfl⟩
  · rw [seqWork_go (hcount hq), (ofNat_softLineFeeds_eq_zero_iff s).mpr hdone]
    exact seqWork_go_emit (seqAction_softLF_zero rfl rfl) rfl
  · have hn : BitVec.ofNat 13 (softLineFeeds s) ≠ 0 :=
      fun e => Nat.not_lt.mpr ((ofNat_softLineFeeds_eq_zero_iff s).mp e) hleft
    have hpred := toNat_nlf_pred hn
    have hnat := toNat_softLineFeeds s
    obtain ⟨hmax, hcover, hleast⟩ := softLineFeeds_bounds s
    refine ⟨BitVec.ofNat 13 (softLineFeeds s) - 1, seqWork_go_emit (hcount hq) (seqAction_softLF_succ rfl hn), ?_⟩
    omega
  · exact ⟨s.loop.nlf - 1, toNat_nlf_pred hn, seqWork_emit (seqAction_softLF_succ hq hn)⟩

/-! ### Init, the formfeed eject, the reset sequence and the ends of a band and of a page -/

/-- The pitch bytes of the active mode are bytes of its PITCHDAT, byte 0 first (R59, R333). -/
theorem getElem?_pitchBytes {c : ConfRegs} {t : Nat} (ht : t < c.activePitchLen) :
    c.pitchBytes[t]? = some ((c.pitchDat.get c.cfg.mode.code).extractLsb' (8 * t) 8) := by
  simp [ConfRegs.pitchBytes, ht, packedByte]

/-- The back-up bytes are bytes of the QUIRKDAT words, four of each (R62, R353). -/
theorem getElem?_quirkBytes {c : ConfRegs} {t : Nat} (ht : t < c.quirkLen.toNat) :
    c.quirkBytes[t]? = some ((c.quirkDat.get (BitVec.ofNat 2 (t / 4))).extractLsb' (8 * (t % 4)) 8) := by
  simp [ConfRegs.quirkBytes, ht, packedByte]

/-- Settles O43: the unit of each position of Init. -/
theorem initSendsDirectionHeightPitch : Obligations.InitSendsDirectionHeightPitch := by
  intro s
  refine ⟨fun hq => seqWork_emit (seqAction_at hq), fun hq => seqWork_emit (seqAction_at hq), fun hq hlen => ?_⟩
  have hraw : seqAction s = .emit (.raw s.conf.pitchBytes) (atSeq .bandInit s) := (seqAction_at hq).trans (if_pos hlen)
  exact ⟨s.conf.pitchBytes, seqWork_emit hraw, by simp [ConfRegs.pitchBytes], fun t => getElem?_pitchBytes⟩

/-- Settles O45: the position after the band's last unit is internal, and its action is the band's end. -/
theorem bandEndAdvancesTheCounters : Obligations.BandEndAdvancesTheCounters := by
  intro s hq
  exact ⟨bandEnd s, seqAction_at hq, rfl, rfl, rfl, rfl, rfl⟩

/-- Settles O47: the unit of each position of the formfeed eject and of the reset sequence; without back-up bytes the
first position is internal. -/
theorem formfeedEjectAndResetSequence : Obligations.FormfeedEjectAndResetSequence := by
  intro s
  refine ⟨fun hq hlen => ?_, fun hq hlen => ?_, fun hq => seqWork_emit (seqAction_at hq),
    fun hq => seqWork_emit (seqAction_at hq), fun hq => seqWork_emit (seqAction_at hq),
    fun hq => seqWork_emit (seqAction_at hq), fun hq => seqWork_emit (seqAction_at hq)⟩
  · have hraw : seqAction s = .emit (.raw s.conf.quirkBytes) (atSeq .ffFF s) := (seqAction_at hq).trans (if_pos hlen)
    exact ⟨s.conf.quirkBytes, seqWork_emit hraw, by simp [ConfRegs.quirkBytes], fun t => getElem?_quirkBytes⟩
  · have hgo : seqAction s = .go (atSeq .ffFF s) := (seqAction_at hq).trans (if_neg (by simp [hlen]))
    exact seqWork_go_emit hgo rfl

/-- Settles O48: the enabled sequencer's work at the position of PageDone is the end of the page. -/
theorem pageDoneSetsDone : Obligations.PageDoneSetsDone := by
  intro s rest hb hp hq hc hi
  rw [step_cons hi]
  have hdone : seqWork { s with inbox := rest } = .done (pageDone { s with inbox := rest }) :=
    seqWork_stop (seqAction_at (s := { s with inbox := rest }) hq) (by simp)
  exact sequencerEvent_done (s := { s with inbox := rest }) hb hp hc hdone

end Sys2Proof.Machine

/-! SUPPORT. The family of the exceptions: the errors WRITE and SOURCE, which end a running page, and the interrupt line
as it shows in STATUS and IE. -/

namespace Sys2Proof.Machine

/-! ### The error entry (R377, R378, R380) -/

/-- A unit that the sink accepts only in part is counted as far as it was taken, and raises WRITE; its own effect is
left out. -/
theorem exec_accepted_short {i : Instr} (hi : isUnit i = true) {s : State} {tag k : Nat} (hk : k < (wireBytes i).length)
    (h : s.port = .sink tag (isRaw i) (wireBytes i) (some k)) :
    exec i s = .next (raiseWrite (wireBytes i).length k (acceptBytes (wireBytes i) k s)) := by
  rw [exec_unit hi, emitUnit_answered h, completeEmit_short hk]

/-- Settles O27: the short write is the acceptance of the count's bytes, followed by the error entry. -/
theorem shortWriteEndsThePage : Obligations.ShortWriteEndsThePage :=
  fun _ _ _ _ hi hk hport => exec_accepted_short hi hk hport

/-- Settles O34: the response is the outstanding SourceRead's, and its event is the error entry. -/
theorem sourceFailRaisesSource : Obligations.SourceFailRaisesSource := by
  intro s tag row ch rest hport hinbox
  calc step s = sourceEvent tag .fail { s with inbox := rest } := step_cons hinbox
    _ = applyRow row ch .fail { s with inbox := rest } :=
        sourceEvent_answers (s := { s with inbox := rest }) hport .fail
    _ = .next (raiseSource row ch { s with inbox := rest }) := rfl

/-! ### The interrupt line (R390) -/

/-- The events that are both set and enabled. -/
def EventBits.meet (f e : EventBits) : EventBits :=
  ⟨f.done && e.done, f.err && e.err, f.cmdErr && e.cmdErr, f.wlock && e.wlock⟩

/-- STATUS under IE is the word of the set and enabled events: STATE and BUSY have no enable (R35, R42). -/
theorem statusWord_and_ieWord (s : State) :
    statusWord s &&& ieWord s = ieWord { s with ie := s.flags.meet s.ie } := by
  apply BitVec.eq_of_getLsbD_eq
  intro i hi
  simp only [statusWord, ieWord, EventBits.word, EventBits.meet, BitVec.getLsbD_and, BitVec.zeroExtend,
    BitVec.getLsbD_setWidth, BitVec.getLsbD_append, getLsbD_bit, hi, decide_true, Bool.true_and]
  interval_cases i
  all_goals simp

/-- IE reads as other than 0 exactly when it enables an event. -/
theorem ieWord_ne_zero_iff (s : State) :
    ieWord s ≠ 0 ↔ (s.ie.done || s.ie.err || s.ie.cmdErr || s.ie.wlock) = true := by
  rw [Ne, ← BitVec.toNat_inj, toNat_ieWord]
  simp [imp_iff_not_or, or_assoc]

/-- The line is high exactly when an event is both set and enabled. -/
theorem irq_iff_meet (s : State) : s.irq = true ↔ ieWord { s with ie := s.flags.meet s.ie } ≠ 0 :=
  (ieWord_ne_zero_iff { s with ie := s.flags.meet s.ie }).symm

/-- Settles O13: the line is the OR of the set and enabled events, and these are the bits of STATUS under IE. -/
theorem irqIsStatusAndEnable : Obligations.IrqIsStatusAndEnable := by
  refine ⟨fun s => ?_, rfl⟩
  have hword : readReg s .status &&& readReg s .ie = ieWord { s with ie := s.flags.meet s.ie } :=
    statusWord_and_ieWord s
  rw [hword]
  exact irq_iff_meet s

end Sys2Proof.Machine

/-! SUPPORT. The family of the reset and the hazards: the commands that a running page refuses, and the state that the
invariant starts from. -/

namespace Sys2Proof.Machine

/-! ### Commands refused while a page runs (R202, R422) -/

/-- While a page runs, START does not reach its checks: it is refused. -/
theorem doStart_busy {s : State} (hb : s.busy = true) : doStart s = setCmdErr s := if_pos hb

/-- While a page runs, XPOSE does not reach the transposer: it is refused. -/
theorem doXpose_busy {s : State} (hb : s.busy = true) : doXpose s = setCmdErr s := if_pos hb

/-- Settles O17: either command is refused, and the refusal is CMDERR and the answer to the bus write. -/
theorem startAndXposeRefusedWhileBusy : Obligations.StartAndXposeRefusedWhileBusy := by
  intro s i hb hi
  obtain rfl | rfl := hi
  · calc exec .start s = .next (ackWrite (doStart s)) := rfl
      _ = .next (ackWrite (setCmdErr s)) := by rw [doStart_busy hb]
  · calc exec .xpose s = .next (ackWrite (doXpose s)) := rfl
      _ = .next (ackWrite (setCmdErr s)) := by rw [doXpose_busy hb]

/-! ### The reset state (R410) -/

/-- Settles O58: the reset state is idle with canonical buffers, and neither DONE nor ERR is set. -/
theorem resetStateIsConsistent : Obligations.ResetStateIsConsistent := by
  have hend : ¬ (State.reset.flags.done = true ∧ State.reset.flags.err = true) := nofun
  obtain ⟨hbbuf, htbuf, hpbuf⟩ := wf_reset_buffers
  exact .of_idle hbbuf htbuf hpbuf hend

end Sys2Proof.Machine
